-- ==== Sys2Proof/Word.lean ====
section
/-! DEFINITION. The word types of the RDB and the plainest arithmetic of its spec (00_scope.md R7, R8, R10). -/

namespace Sys2Proof

/-- One byte of a buffer (00_scope.md R7). -/
abbrev Byte := BitVec 8

/-- A host-visible register, a command word, or a bus address (00_scope.md R7). -/
abbrev Word := BitVec 32

/-- `ceil(a/b)` for `b > 0` (00_scope.md R8). -/
def ceilDiv (a b : Nat) : Nat := (a + b - 1) / b

end Sys2Proof
end

