-- ==== Sys2Proof/Config.lean ====
section
/-! DEFINITION. What an implementation fixes (00_scope.md R6) and the free values of the spec
(93_implementation_defined.md, treatment `any value`). Every `opaque` here has no body: nothing proves which value it has. -/

namespace Sys2Proof

/-- The reaction to an LZW code the dictionary cannot resolve (00_scope.md R6, 42_lzw.md R175). -/
inductive BadCodePolicy where
  | fault
  | softStop
  deriving DecidableEq, Repr, Inhabited

/-- The OPEN parameters of 00_scope.md R6: arguments of the model, carried by the state and never written. -/
structure Params where
  inbufBytes : Nat
  outbufBytes : Nat
  maskbufBytes : Nat
  rowbufBytes : Nat
  badCode : BadCodePolicy
  deriving DecidableEq, Repr

/-- The ranges 00_scope.md R6 gives the parameters. -/
def Params.legal (p : Params) : Bool :=
  1 ≤ p.inbufBytes && p.inbufBytes ≤ 2 ^ 28 && (1 ≤ p.outbufBytes && p.outbufBytes ≤ 2 ^ 28) &&
    (p.maskbufBytes ≤ 2 ^ 28 && 1 ≤ p.rowbufBytes)

namespace Config

/-- Dictionary entries (00_scope.md R6). -/
def lzwTableEntries : Nat := 4096

/-- Widest code (00_scope.md R6). -/
def lzwMaxCodeBits : Nat := 12

/-- Pixel stack depth (00_scope.md R6). -/
def lzwStackEntries : Nat := 4097

/-- INBUF_BYTES less one, any size in range (log 1). -/
opaque inbufSize : Fin (2 ^ 28)

/-- OUTBUF_BYTES less one, any size in range (log 1). -/
opaque outbufSize : Fin (2 ^ 28)

/-- MASKBUF_BYTES, any size in range (log 1). -/
opaque maskbufSize : Fin (2 ^ 28 + 1)

/-- ROWBUF_BYTES less one, any size (log 1). -/
opaque rowbufSize : Nat

/-- BAD_CODE_POLICY, either (log 26). -/
opaque badCodePolicy : BadCodePolicy

/-- The parameters of the machine that State.reset describes: any legal choice (log 1). -/
def params : Params where
  inbufBytes := inbufSize.val + 1
  outbufBytes := outbufSize.val + 1
  maskbufBytes := maskbufSize.val
  rowbufBytes := rowbufSize + 1
  badCode := badCodePolicy

/-- FREE VALUE: the `n`-th unspecified value of `w` bits (log 16). -/
opaque freeBits (w n : Nat) : BitVec w

/-- FREE VALUE: entry `i` of an internal array of `w`-bit entries that nothing has written since it became
unspecified; `gen` tells one array and one occasion from another (93 U2, U8; log 3). -/
opaque staleBits (w gen i : Nat) : BitVec w

/-- FREE VALUE: the byte at bus address `a` that nothing has written since power-on number `epoch` (93 U1, U9; log 2). -/
opaque powerOnByte (epoch a : Nat) : Byte

/-- FREE CHOICE: whether the host moves before the engine, at the `n`-th choice (93 U26; log 7). -/
opaque hostFirst (n : Nat) : Bool

end Config
end Sys2Proof
end

