-- ==== Sys2Proof/Syntax.lean ====
section
/-! DEFINITION. The instructions of the RDB: one constructor for each row of spec/opcode_table.json.
An operand holds exactly the bits that the row's mask leaves free, so a constructor cannot leave its row. -/

namespace Sys2Proof

/-- The four encoded formats (30_encoding.md R80, R86, R88, R90). Which one is read next is decided by the
sequencer state, never by a bit of the word. -/
inductive Format where
  | cmd32
  | lzwCode
  | sbLen8
  | filter8
  deriving DecidableEq, Repr

/-- An encoded word together with the format it is read in. A code is zero-extended to 12 bits. -/
inductive Encoding where
  | cmd (w : Word)
  | code (c : BitVec 12)
  | len (b : Byte)
  | filter (b : Byte)
  deriving DecidableEq, Repr

/-- What the class of an LZW code depends on (30_encoding.md R87): L.codeSize, L.clearCode, L.available, L.oldCode. -/
structure LzwCtx where
  codeSize : BitVec 4
  clearCode : BitVec 9
  available : BitVec 13
  oldCode : Option (BitVec 12)
  deriving DecidableEq, Repr

/-- One constructor per row of the opcode table. -/
inductive Instr where
  -- commands (30_encoding.md R81)
  | nop
  | reset
  | abort
  | pbClear
  | pbSet
  | pbGet
  | lzwStart
  | pngStart
  -- reserved commands (30_encoding.md R82); `low` holds the bits below the ones the row fixes
  | cmdReservedOp (low : BitVec 3)
  | cmdReservedRsvdB4 (low : BitVec 4)
  | cmdReservedRsvdB5 (low : BitVec 5)
  | cmdReservedRsvdB6 (low : BitVec 6)
  | cmdReservedRsvdB7 (low : BitVec 7)
  | cmdReservedRsvdB8 (low : BitVec 8)
  | cmdReservedRsvdB9 (low : BitVec 9)
  | cmdReservedRsvdB10 (low : BitVec 10)
  | cmdReservedRsvdB11 (low : BitVec 11)
  | cmdReservedRsvdB12 (low : BitVec 12)
  | cmdReservedRsvdB13 (low : BitVec 13)
  | cmdReservedRsvdB14 (low : BitVec 14)
  | cmdReservedRsvdB15 (low : BitVec 15)
  | cmdReservedRsvdB16 (low : BitVec 16)
  | cmdReservedRsvdB17 (low : BitVec 17)
  | cmdReservedRsvdB18 (low : BitVec 18)
  | cmdReservedRsvdB19 (low : BitVec 19)
  | cmdReservedRsvdB20 (low : BitVec 20)
  | cmdReservedRsvdB21 (low : BitVec 21)
  | cmdReservedRsvdB22 (low : BitVec 22)
  | cmdReservedRsvdB23 (low : BitVec 23)
  | cmdReservedRsvdB24 (low : BitVec 24)
  | cmdReservedRsvdB25 (low : BitVec 25)
  | cmdReservedRsvdB26 (low : BitVec 26)
  | cmdReservedRsvdB27 (low : BitVec 27)
  | cmdReservedRsvdB28 (low : BitVec 28)
  | cmdReservedRsvdB29 (low : BitVec 29)
  | cmdReservedRsvdB30 (low : BitVec 30)
  | cmdReservedRsvdB31 (low : BitVec 31)
  -- LZW code classes (30_encoding.md R87)
  | lzwClear (code : BitVec 12)
  | lzwEnd (code : BitVec 12)
  | lzwBad (code : BitVec 12)
  | lzwFirst (code : BitVec 12)
  | lzwKwkwk (code : BitVec 12)
  | lzwLit (code : BitVec 12)
  | lzwDict (code : BitVec 12)
  -- sub-block length bytes (30_encoding.md R88)
  | sbTerm
  | sbData01
  | sbData02 (low : BitVec 1)
  | sbData04 (low : BitVec 2)
  | sbData08 (low : BitVec 3)
  | sbData10 (low : BitVec 4)
  | sbData20 (low : BitVec 5)
  | sbData40 (low : BitVec 6)
  | sbData80 (low : BitVec 7)
  -- filter type bytes (30_encoding.md R90)
  | filterNone
  | filterSub
  | filterUp
  | filterAvg
  | filterPaeth
  | filterReserved05
  | filterReserved06 (low : BitVec 1)
  | filterReserved08 (low : BitVec 3)
  | filterReserved10 (low : BitVec 4)
  | filterReserved20 (low : BitVec 5)
  | filterReserved40 (low : BitVec 6)
  | filterReserved80 (low : BitVec 7)
  deriving DecidableEq, Repr

end Sys2Proof
end

