-- ==== Sys2Proof/WellFormed.lean ====
section
/-! DEFINITION. Which instruction terms an encoded word can stand for. Commands, sub-block lengths and filter types
are well-formed by their types; an LZW code must fit the current width and be of the class its constructor names. -/

namespace Sys2Proof

/-- A value fits the current code width (30_encoding.md R86). -/
def LzwCtx.fits (c : LzwCtx) (code : BitVec 12) : Bool := code.toNat < 2 ^ c.codeSize.toNat

/-- Line 1 of 30_encoding.md R87. -/
def LzwCtx.isClear (c : LzwCtx) (code : BitVec 12) : Bool := code.toNat == c.clearCode.toNat

/-- Line 2 of 30_encoding.md R87. -/
def LzwCtx.isEnd (c : LzwCtx) (code : BitVec 12) : Bool := code.toNat == c.clearCode.toNat + 1

/-- Line 3 of 30_encoding.md R87. -/
def LzwCtx.isBad (c : LzwCtx) (code : BitVec 12) : Bool :=
  c.available.toNat < code.toNat || (c.oldCode.isNone && c.clearCode.toNat ≤ code.toNat)

/-- Line 4 of 30_encoding.md R87. -/
def LzwCtx.isFirst (c : LzwCtx) (code : BitVec 12) : Bool :=
  c.oldCode.isNone && code.toNat < c.clearCode.toNat

/-- Line 5 of 30_encoding.md R87. -/
def LzwCtx.isKwkwk (c : LzwCtx) (code : BitVec 12) : Bool := code.toNat == c.available.toNat

/-- Line 6 of 30_encoding.md R87. -/
def LzwCtx.isLit (c : LzwCtx) (code : BitVec 12) : Bool := code.toNat < c.clearCode.toNat

/-- Line 7 of 30_encoding.md R87. -/
def LzwCtx.isDict (c : LzwCtx) (code : BitVec 12) : Bool :=
  c.clearCode.toNat + 2 ≤ code.toNat && code.toNat < c.available.toNat

/-- `i` is a term that some encoded word of the context stands for: an LZW term's code satisfies its own line of
30_encoding.md R87 and none of the lines before it. -/
def Instr.wellFormed (c : LzwCtx) : Instr → Bool
  | .lzwClear code => c.fits code && c.isClear code
  | .lzwEnd code => c.fits code && c.isEnd code && !c.isClear code
  | .lzwBad code => c.fits code && c.isBad code && !c.isClear code && !c.isEnd code
  | .lzwFirst code =>
      c.fits code && c.isFirst code && !c.isClear code && !c.isEnd code && !c.isBad code
  | .lzwKwkwk code =>
      c.fits code && c.isKwkwk code && !c.isClear code && !c.isEnd code && !c.isBad code && !c.isFirst code
  | .lzwLit code =>
      c.fits code && c.isLit code && !c.isClear code && !c.isEnd code && !c.isBad code && !c.isFirst code &&
        !c.isKwkwk code
  | .lzwDict code =>
      c.fits code && c.isDict code && !c.isClear code && !c.isEnd code && !c.isBad code && !c.isFirst code &&
        !c.isKwkwk code && !c.isLit code
  | .nop => true
  | .reset => true
  | .abort => true
  | .pbClear => true
  | .pbSet => true
  | .pbGet => true
  | .lzwStart => true
  | .pngStart => true
  | .cmdReservedOp _ => true
  | .cmdReservedRsvdB4 _ => true
  | .cmdReservedRsvdB5 _ => true
  | .cmdReservedRsvdB6 _ => true
  | .cmdReservedRsvdB7 _ => true
  | .cmdReservedRsvdB8 _ => true
  | .cmdReservedRsvdB9 _ => true
  | .cmdReservedRsvdB10 _ => true
  | .cmdReservedRsvdB11 _ => true
  | .cmdReservedRsvdB12 _ => true
  | .cmdReservedRsvdB13 _ => true
  | .cmdReservedRsvdB14 _ => true
  | .cmdReservedRsvdB15 _ => true
  | .cmdReservedRsvdB16 _ => true
  | .cmdReservedRsvdB17 _ => true
  | .cmdReservedRsvdB18 _ => true
  | .cmdReservedRsvdB19 _ => true
  | .cmdReservedRsvdB20 _ => true
  | .cmdReservedRsvdB21 _ => true
  | .cmdReservedRsvdB22 _ => true
  | .cmdReservedRsvdB23 _ => true
  | .cmdReservedRsvdB24 _ => true
  | .cmdReservedRsvdB25 _ => true
  | .cmdReservedRsvdB26 _ => true
  | .cmdReservedRsvdB27 _ => true
  | .cmdReservedRsvdB28 _ => true
  | .cmdReservedRsvdB29 _ => true
  | .cmdReservedRsvdB30 _ => true
  | .cmdReservedRsvdB31 _ => true
  | .sbTerm => true
  | .sbData01 => true
  | .sbData02 _ => true
  | .sbData04 _ => true
  | .sbData08 _ => true
  | .sbData10 _ => true
  | .sbData20 _ => true
  | .sbData40 _ => true
  | .sbData80 _ => true
  | .filterNone => true
  | .filterSub => true
  | .filterUp => true
  | .filterAvg => true
  | .filterPaeth => true
  | .filterReserved05 => true
  | .filterReserved06 _ => true
  | .filterReserved08 _ => true
  | .filterReserved10 _ => true
  | .filterReserved20 _ => true
  | .filterReserved40 _ => true
  | .filterReserved80 _ => true

end Sys2Proof
end

