-- ==== Sys2Proof/Machine/State.lean ====
section
/-! DEFINITION. The state of the RDB as plain data (10_state.md), the reasons a model step stops, and the state after
power-on reset (70_reset_and_hazards.md R290, R292). -/

namespace Sys2Proof.Machine

/-- STATUS.STATE (10_state.md R24). -/
inductive EngState where
  | idle
  | busy
  | done
  | fault
  deriving DecidableEq, Repr

/-- STATUS.UNIT (10_state.md R24). -/
inductive UnitSel where
  | noUnit
  | pb
  | lzw
  | png
  deriving DecidableEq, Repr

/-- STATUS.FAULT_CODE (60_exceptions.md R261). Codes 8 to 15 are reserved and never written (93 U23). -/
inductive FaultCode where
  | noFault
  | formatSignatureMismatch
  | prematureEndOfStream
  | corruptChunk
  | corruptBlock
  | frameNotFound
  | unsupportedConfiguration
  | boundsCheck
  deriving DecidableEq, Repr

/-- STATUS.END_REASON (60_exceptions.md R270). Values 7 to 15 are reserved and never written (93 U23). -/
inductive EndReason where
  | noReason
  | endCode
  | pixelsDone
  | tableFull
  | terminator
  | badCodeSoft
  | rowsDone
  deriving DecidableEq, Repr

/-- The stored fields of IN_FMT (10_state.md R27); its reserved bits have no storage. -/
structure InFmt where
  bitDepth : BitVec 5
  colorType : BitVec 3
  interlace : Bool
  deriving DecidableEq, Repr

/-- The stored fields of OUT_FMT (10_state.md R28); its reserved bits have no storage. -/
structure OutFmt where
  bpc : BitVec 5
  ncomp : BitVec 3
  mask : Bool
  deriving DecidableEq, Repr

/-- An internal array of `w`-bit entries: the entries written since generation `gen` began, by strictly rising index.
An entry not listed is unspecified (10_state.md R50; log 3). -/
structure Table (w : Nat) where
  gen : Nat
  cells : List (Nat × BitVec w)
  deriving DecidableEq, Repr

/-- The LZW unit (10_state.md R41 to R43), each value at the width given there. -/
structure Lzw where
  dataSize : BitVec 4
  clearCode : BitVec 9
  endCode : BitVec 9
  codeSize : BitVec 4
  available : BitVec 13
  oldCode : Option (BitVec 12)
  first : BitVec 8
  datum : BitVec 19
  bits : BitVec 5
  count : BitVec 8
  top : BitVec 13
  pfx : Table 12
  sfx : Table 8
  stack : Table 8
  deriving DecidableEq, Repr

/-- The PNG unit (10_state.md R45, R46), each value at the width given there. -/
structure Png where
  bands : BitVec 3
  alpha : Bool
  bpp : BitVec 4
  pass : BitVec 3
  passWidth : Word
  passHeight : Word
  rowBytes : Word
  srcY : Word
  curr : Table 8
  prior : Table 8
  deriving DecidableEq, Repr

/-- One bus transaction of the host: an access of `bits` bits at a byte address; `data` is what a write carries. -/
structure BusOp where
  write : Bool
  bits : Nat
  addr : Word
  data : Word
  deriving DecidableEq, Repr

/-- What can reach the block from outside: a bus transaction, or the reset input (70_reset_and_hazards.md R290). -/
inductive HostEvent where
  | bus (op : BusOp)
  | powerOn
  deriving DecidableEq, Repr

/-- The answer to one bus transaction: an accepted read's data (a byte is zero-extended), an accepted write, or a bus
error (20_memory.md R65). -/
inductive BusResp where
  | data (v : Word)
  | ok
  | error
  deriving DecidableEq, Repr

/-- INBUF, OUTBUF and MASKBUF, by bus address (20_memory.md R62): the bytes written since power-on. An address not listed
holds no written byte (log 2). -/
abbrev Memory := List Host.Cell

/-- The canonical form of memory: addresses strictly rising, so that one set of written bytes is one list. -/
abbrev Memory.wf (m : Memory) : Prop := m.Pairwise fun p q => p.1 < q.1

/-- The whole state of one RDB. -/
structure State where
  /-- The parameters of 00_scope.md R6; never written (log 1). -/
  params : Params
  /-- STATUS.STATE. -/
  engine : EngState
  /-- STATUS.CMDERR. -/
  cmdErr : Bool
  /-- STATUS.TERM_SEEN. -/
  termSeen : Bool
  /-- STATUS.FAULT_CODE. -/
  faultCode : FaultCode
  /-- STATUS.END_REASON. -/
  endReason : EndReason
  /-- STATUS.UNIT. -/
  unit : UnitSel
  /-- IRQ_EN.EN. -/
  irqEn : Bool
  width : Word
  height : Word
  inFmt : InFmt
  outFmt : OutFmt
  inLen : Word
  inPos : Word
  pixCnt : Word
  pxX : Word
  pxY : Word
  pxC : Word
  pxV : Word
  lzw : Lzw
  png : Png
  mem : Memory
  /-- Model's own: the power-on that unwritten buffer bytes date from (log 2). -/
  epoch : Nat
  /-- Model's own: how many free values have been drawn (log 16). -/
  free : Nat
  /-- Model's own: host events not yet processed, oldest first (log 6). -/
  inbox : List HostEvent
  /-- Model's own: answers given to the host, newest first (log 6). -/
  outbox : List BusResp
  /-- Model's own: the host moves first when the engine could move too (log 7). -/
  hostNext : Bool
  deriving DecidableEq, Repr

/-- Why a model step stops. The RDB itself never stops: its faults are states with STATUS.STATE = FAULT
(60_exceptions.md R262). Each reason below is met only in states that no run reaches (log 13), and stopping there is safe:
no claim about a next state follows from it. -/
inductive Fault where
  /-- Raised by the engine when STATE = BUSY and UNIT is neither LZW nor PNG: no unit is running (10_state.md R40). Safe. -/
  | noRunningUnit
  /-- Raised by a push on a pixel stack that already holds LZW_STACK_ENTRIES entries (42_lzw.md R177 derives that none
  overflows). Safe. -/
  | stackOverflow
  /-- Raised by a LIT, DICT or KWKWK code executed while L.oldCode = NONE, which no code is classified as then
  (30_encoding.md R87). Safe. -/
  | noOldCode
  deriving DecidableEq, Repr

/-- Why a model step has no meaning. -/
inductive Refusal where
  /-- Raised by an arm of `exec` for an instruction that has no meaning yet. Safe. No arm raises it. -/
  | notModelled (mnemonic : String)
  deriving DecidableEq, Repr

/-- The outcome type of every meaning. -/
abbrev Result := Host.Outcome State Fault Refusal

/-- An internal array with every entry unspecified. -/
def Table.fresh (w gen : Nat) : Table w where
  gen := gen
  cells := []

/-- The LZW unit after power-on: scalars that the spec leaves unspecified are zero or NONE (DESIGN CHOICE, log 3); the data
size, code size and available slot are what LZW_STAT reads (70_reset_and_hazards.md R292); arrays are unspecified. -/
def Lzw.reset : Lzw where
  dataSize := 0
  clearCode := 0
  endCode := 0
  codeSize := 0
  available := 0
  oldCode := none
  first := 0
  datum := 0
  bits := 0
  count := 0
  top := 0
  pfx := Table.fresh 12 0
  sfx := Table.fresh 8 1
  stack := Table.fresh 8 2

/-- The PNG unit after power-on: scalars zero (DESIGN CHOICE, log 3), arrays unspecified. -/
def Png.reset : Png where
  bands := 0
  alpha := false
  bpp := 0
  pass := 0
  passWidth := 0
  passHeight := 0
  rowBytes := 0
  srcY := 0
  curr := Table.fresh 8 3
  prior := Table.fresh 8 4

/-- The machine right after power-on reset (70_reset_and_hazards.md R290, R292). -/
def State.reset : State where
  params := Config.params
  engine := .idle
  cmdErr := false
  termSeen := false
  faultCode := .noFault
  endReason := .noReason
  unit := .noUnit
  irqEn := false
  width := 0
  height := 0
  inFmt := ⟨0, 0, false⟩
  outFmt := ⟨0, 0, false⟩
  inLen := 0
  inPos := 0
  pixCnt := 0
  pxX := 0
  pxY := 0
  pxC := 0
  pxV := 0
  lzw := Lzw.reset
  png := Png.reset
  mem := []
  epoch := 0
  free := 8
  inbox := []
  outbox := []
  hostNext := true

end Sys2Proof.Machine
end

