-- ==== Sys2Proof/Machine/Operands.lean ====
section
/-! DEFINITION. Where operands come from and where they go: register fields, bus windows, buffer geometry and sample
addresses (10_state.md R27 to R33, 20_memory.md R62, 41_pixel_buffer.md R130 to R137), the operand checks of the start
commands (42_lzw.md R161, 43_png_unfilter.md R211), and the two interlace orders (42_lzw.md R179, 43_png_unfilter.md R215). -/

namespace Sys2Proof.Machine

/-- The three buffer windows (20_memory.md R62). -/
inductive Space where
  | inbuf
  | outbuf
  | maskbuf
  deriving DecidableEq, Repr

/-- The bus address of index 0 of a window (20_memory.md R62). -/
def Space.base : Space → Nat
  | .inbuf => 0x10000000
  | .outbuf => 0x20000000
  | .maskbuf => 0x30000000

/-- The size of a window (20_memory.md R62, 00_scope.md R6). -/
def windowSize (p : Params) : Space → Nat
  | .inbuf => p.inbufBytes
  | .outbuf => p.outbufBytes
  | .maskbuf => p.maskbufBytes

/-- IN_FMT as it reads: BITDEPTH in [4:0], COLORTYPE in [10:8], INTERLACE in [16], other bits 0 (10_state.md R27). -/
def InFmt.toWord (f : InFmt) : Word :=
  BitVec.ofNat 32 (f.bitDepth.toNat + f.colorType.toNat * 2 ^ 8 + f.interlace.toNat * 2 ^ 16)

/-- What a write of IN_FMT stores (10_state.md R27). -/
def InFmt.ofWord (w : Word) : InFmt where
  bitDepth := w.extractLsb' 0 5
  colorType := w.extractLsb' 8 3
  interlace := w.getLsbD 16

/-- OUT_FMT as it reads: BPC in [4:0], NCOMP in [10:8], MASK in [16], other bits 0 (10_state.md R28). -/
def OutFmt.toWord (f : OutFmt) : Word :=
  BitVec.ofNat 32 (f.bpc.toNat + f.ncomp.toNat * 2 ^ 8 + f.mask.toNat * 2 ^ 16)

/-- What a write of OUT_FMT stores (10_state.md R28). -/
def OutFmt.ofWord (w : Word) : OutFmt where
  bpc := w.extractLsb' 0 5
  ncomp := w.extractLsb' 8 3
  mask := w.getLsbD 16

/-- `stride(W, n, b)`, the bytes of a row (00_scope.md R10). -/
def strideOf (w n b : Nat) : Nat := ceilDiv (w * n * b) 8

/-- S of 41_pixel_buffer.md R130. -/
def State.stride (s : State) : Nat := strideOf s.width.toNat s.outFmt.ncomp.toNat s.outFmt.bpc.toNat

/-- STRIDE as it reads: saturated to 32 bits (10_state.md R32). -/
def State.strideReg (s : State) : Word := BitVec.ofNat 32 (min s.stride 0xFFFFFFFF)

/-- LZW_STAT as it reads outside BUSY: dataSize in [3:0], codeSize in [7:4], available in [20:8] (10_state.md R33; log 5). -/
def State.lzwStat (s : State) : Word :=
  BitVec.ofNat 32 (s.lzw.dataSize.toNat + s.lzw.codeSize.toNat * 2 ^ 4 + s.lzw.available.toNat * 2 ^ 8)

/-- The bytes of OUTBUF that the current geometry uses (20_memory.md R63). -/
def State.usedOut (s : State) : Nat := s.stride * s.height.toNat

/-- The bytes of MASKBUF that the current geometry uses when OUT_FMT.MASK = 1 (20_memory.md R64). -/
def State.usedMask (s : State) : Nat := s.width.toNat * s.height.toNat

/-- The depths the pixel buffer stores (41_pixel_buffer.md R131 item 2). -/
def legalBpc (b : Nat) : Bool := b == 1 || b == 2 || b == 4 || b == 8 || b == 16

/-- `geomOK()`, its five tests in the order of 41_pixel_buffer.md R131. -/
def State.geomOK (s : State) : Bool :=
  (1 ≤ s.width.toNat && 1 ≤ s.height.toNat) && legalBpc s.outFmt.bpc.toNat &&
    (1 ≤ s.outFmt.ncomp.toNat && s.outFmt.ncomp.toNat ≤ 4) &&
    s.stride * s.height.toNat ≤ s.params.outbufBytes &&
    (!s.outFmt.mask || s.width.toNat * s.height.toNat ≤ s.params.maskbufBytes)

/-- `inBounds(PX_X, PX_Y, PX_C)` (41_pixel_buffer.md R137). -/
def State.pxInBounds (s : State) : Bool :=
  s.pxX.toNat < s.width.toNat && s.pxY.toNat < s.height.toNat && s.pxC.toNat < s.outFmt.ncomp.toNat

/-- `bitAddr(x, y, c)` (41_pixel_buffer.md R134). -/
def State.bitAddr (s : State) (x y c : Nat) : Nat :=
  8 * y * s.stride + (x * s.outFmt.ncomp.toNat + c) * s.outFmt.bpc.toNat

/-- `byteIdx(x, y, c)` (41_pixel_buffer.md R134). -/
def State.byteIdx (s : State) (x y c : Nat) : Nat := s.bitAddr x y c / 8

/-- `shift(x, y, c)`, for depths below 8 (41_pixel_buffer.md R134). -/
def State.shiftOf (s : State) (x y c : Nat) : Nat := 8 - s.outFmt.bpc.toNat - s.bitAddr x y c % 8

/-- `lzwCheck()`, its tests in the order of 42_lzw.md R161. -/
def State.lzwCheck (s : State) : Bool :=
  let bd := s.inFmt.bitDepth.toNat
  (1 ≤ s.width.toNat && 1 ≤ s.height.toNat) && (bd == 1 || bd == 2 || bd == 4 || bd == 8) &&
    s.inLen.toNat ≤ s.params.inbufBytes &&
    strideOf s.width.toNat 1 bd * s.height.toNat ≤ s.params.outbufBytes

/-- The input channels of a color type (43_png_unfilter.md R211); 0 for a color type that is not one of the five. -/
def pngBands (ct : Nat) : Nat :=
  if ct = 0 then 1 else if ct = 2 then 3 else if ct = 3 then 1 else if ct = 4 then 2 else if ct = 6 then 4 else 0

/-- The color types with an alpha channel (43_png_unfilter.md R213). -/
def pngAlpha (ct : Nat) : Bool := ct == 4 || ct == 6

/-- The legal pairs of color type and bit depth (43_png_unfilter.md R211). -/
def pngPair (ct bd : Nat) : Bool :=
  if ct = 0 then bd == 1 || bd == 2 || bd == 4 || bd == 8 || bd == 16
  else if ct = 2 then bd == 8 || bd == 16
  else if ct = 3 then bd == 1 || bd == 2 || bd == 4 || bd == 8
  else if ct = 4 then bd == 8 || bd == 16
  else if ct = 6 then bd == 8 || bd == 16
  else false

/-- The depth of the output: 16-bit input is written as 8-bit (43_png_unfilter.md R213). -/
def pngOutBpc (bd : Nat) : Nat := if bd = 16 then 8 else bd

/-- The output geometry that PNG_START writes (43_png_unfilter.md R213). -/
def pngOutFmt (ct bd : Nat) : OutFmt where
  bpc := BitVec.ofNat 5 (pngOutBpc bd)
  ncomp := BitVec.ofNat 3 (pngBands ct - (pngAlpha ct).toNat)
  mask := pngAlpha ct

/-- `pngCheck()`, its tests in the order of 43_png_unfilter.md R211. -/
def State.pngCheck (s : State) : Bool :=
  let bd := s.inFmt.bitDepth.toNat
  let ct := s.inFmt.colorType.toNat
  (1 ≤ s.width.toNat && 1 ≤ s.height.toNat) && pngPair ct bd &&
    s.inLen.toNat ≤ s.params.inbufBytes &&
    strideOf s.width.toNat (pngBands ct - (pngAlpha ct).toNat) (pngOutBpc bd) * s.height.toNat ≤ s.params.outbufBytes &&
    (!pngAlpha ct || s.width.toNat * s.height.toNat ≤ s.params.maskbufBytes) &&
    ceilDiv (pngBands ct * s.width.toNat * bd) 8 ≤ s.params.rowbufBytes

/-- `rows(start, step)`: start, start + step, … below `h` (42_lzw.md R179). -/
def gifRows (h start step : Nat) : List Nat :=
  (List.range (ceilDiv (h - start) step)).map fun i => start + step * i

/-- The four passes of the GIF interlace, one after another (42_lzw.md R179). -/
def gifOrder (h : Nat) : List Nat := gifRows h 0 8 ++ gifRows h 4 8 ++ gifRows h 2 4 ++ gifRows h 1 2

/-- `gifRow(i)`: the output row of the i-th row of pixels in the stream (42_lzw.md R179). -/
def gifRow (interlace : Bool) (h i : Nat) : Nat := if interlace then (gifOrder h).getD i 0 else i

/-- The offsets and steps of a pass. -/
structure PassGeom where
  xOff : Nat
  yOff : Nat
  xStep : Nat
  yStep : Nat
  deriving DecidableEq, Repr

/-- The pass table (43_png_unfilter.md R215). Without interlace the only pass is 1, which covers the whole image. -/
def passGeom (interlace : Bool) (pass : Nat) : PassGeom :=
  if !interlace then ⟨0, 0, 1, 1⟩
  else if pass = 1 then ⟨0, 0, 8, 8⟩
  else if pass = 2 then ⟨4, 0, 8, 8⟩
  else if pass = 3 then ⟨0, 4, 4, 8⟩
  else if pass = 4 then ⟨2, 0, 4, 4⟩
  else if pass = 5 then ⟨0, 2, 2, 4⟩
  else if pass = 6 then ⟨1, 0, 2, 2⟩
  else ⟨0, 1, 1, 2⟩

/-- How many passes there are (43_png_unfilter.md R215). -/
def lastPass (interlace : Bool) : Nat := if interlace then 7 else 1

/-- `passWidth`, 0 when the offset is not below the full width (43_png_unfilter.md R215). -/
def passWidthOf (interlace : Bool) (w pass : Nat) : Nat :=
  ceilDiv (w - (passGeom interlace pass).xOff) (passGeom interlace pass).xStep

/-- `passHeight`, 0 when the offset is not below the full height (43_png_unfilter.md R215). -/
def passHeightOf (interlace : Bool) (h pass : Nat) : Nat :=
  ceilDiv (h - (passGeom interlace pass).yOff) (passGeom interlace pass).yStep

/-- `sample(j)` of a reconstructed scanline (43_png_unfilter.md R228). -/
def sampleOf (bd : Nat) (row : List Byte) (j : Nat) : Nat :=
  if bd = 16 then (row.getD (2 * j) 0).toNat * 256 + (row.getD (2 * j + 1) 0).toNat
  else if bd = 8 then (row.getD j 0).toNat
  else ((row.getD (j * bd / 8) 0).toNat >>> (8 - bd - j * bd % 8)) % 2 ^ bd

/-- The high byte of a 16-bit sample (41_pixel_buffer.md R144). -/
def down8 (v : Nat) : Nat := v / 256 % 256

/-- What the class of the next LZW code depends on (30_encoding.md R87). -/
def Lzw.ctx (l : Lzw) : LzwCtx where
  codeSize := l.codeSize
  clearCode := l.clearCode
  available := l.available
  oldCode := l.oldCode

end Sys2Proof.Machine
end

