-- ==== Sys2Proof/Machine/Flags.lean ====
section
/-! DEFINITION. STATUS and the interrupt output (10_state.md R24, R25, R34; 60_exceptions.md R261, R270, R280), and which
commands a state accepts (40_control.md R110). -/

namespace Sys2Proof.Machine

/-- The value of STATUS.STATE (10_state.md R24). -/
def EngState.value : EngState → Nat
  | .idle => 0
  | .busy => 1
  | .done => 2
  | .fault => 3

/-- The value of STATUS.UNIT (10_state.md R24). -/
def UnitSel.value : UnitSel → Nat
  | .noUnit => 0
  | .pb => 1
  | .lzw => 2
  | .png => 3

/-- The value of STATUS.FAULT_CODE (60_exceptions.md R261). -/
def FaultCode.value : FaultCode → Nat
  | .noFault => 0
  | .formatSignatureMismatch => 1
  | .prematureEndOfStream => 2
  | .corruptChunk => 3
  | .corruptBlock => 4
  | .frameNotFound => 5
  | .unsupportedConfiguration => 6
  | .boundsCheck => 7

/-- The value of STATUS.END_REASON (60_exceptions.md R270). -/
def EndReason.value : EndReason → Nat
  | .noReason => 0
  | .endCode => 1
  | .pixelsDone => 2
  | .tableFull => 3
  | .terminator => 4
  | .badCodeSoft => 5
  | .rowsDone => 6

/-- The interrupt output (10_state.md R25, 60_exceptions.md R280). -/
def State.irq (s : State) : Bool := s.irqEn && (s.engine == .done || s.engine == .fault)

/-- STATUS as it reads (10_state.md R24). -/
def State.status (s : State) : Word :=
  BitVec.ofNat 32
    (s.engine.value + s.cmdErr.toNat * 2 ^ 2 + s.termSeen.toNat * 2 ^ 3 + s.faultCode.value * 2 ^ 4 +
      s.endReason.value * 2 ^ 8 + s.irq.toNat * 2 ^ 12 + s.unit.value * 2 ^ 13)

/-- STATE = BUSY. -/
def State.isBusy (s : State) : Bool := s.engine == .busy

/-- Whether a start or pixel-buffer command is accepted: in IDLE and DONE (40_control.md R110). -/
def State.acceptsWork (s : State) : Bool := s.engine == .idle || s.engine == .done

/-- Whether ABORT is accepted: in every state but FAULT (40_control.md R110). -/
def State.acceptsAbort (s : State) : Bool := s.engine != .fault

end Sys2Proof.Machine
end

