-- ==== Sys2Proof/Machine/Ops.lean ====
section
/-! DEFINITION. The operations that meanings share: the listed-cells form of memories and internal arrays, reading and
writing buffer bytes, the refusal, `raise Fault` and `done` (00_scope.md R9), drawing unspecified values, reset, reading
input, and the two pixel primitives (41_pixel_buffer.md R135, R136). -/

namespace Sys2Proof.Machine

variable {α : Type}

/-- The value listed at an index. -/
def cellsGet? (l : List (Nat × α)) (i : Nat) : Option α := (l.find? fun p => p.1 == i).map fun p => p.2

/-- Consecutive cells from an index on. -/
def cellsAt : Nat → List α → List (Nat × α)
  | _, [] => []
  | i, v :: vs => (i, v) :: cellsAt (i + 1) vs

/-- Store consecutive values from an index on, in place of what is listed there, keeping the rising order. -/
def cellsPut (l : List (Nat × α)) (i : Nat) (vs : List α) : List (Nat × α) :=
  l.filter (fun p => p.1 < i) ++ cellsAt i vs ++ l.filter (fun p => i + vs.length ≤ p.1)

/-- An entry of an internal array: what was written, or an unspecified value (10_state.md R50). -/
def Table.get {w : Nat} (t : Table w) (i : Nat) : BitVec w := (cellsGet? t.cells i).getD (Config.staleBits w t.gen i)

/-- Write consecutive entries of an internal array. -/
def Table.put {w : Nat} (t : Table w) (i : Nat) (vs : List (BitVec w)) : Table w :=
  { t with cells := cellsPut t.cells i vs }

/-- The first `n` entries of an internal array. -/
def Table.prefixList {w : Nat} (t : Table w) (n : Nat) : List (BitVec w) := (List.range n).map t.get

/-- The byte at a bus address of a buffer window: what was written since power-on, else any value (93 U1; log 2). -/
def State.byteAt (s : State) (a : Nat) : Byte := (cellsGet? s.mem a).getD (Config.powerOnByte s.epoch a)

/-- `MemRead(space, i, 1)` (00_scope.md R9). -/
def State.peek (s : State) (sp : Space) (i : Nat) : Byte := s.byteAt (sp.base + i)

/-- `MemWrite(space, i, n, bytes)` (00_scope.md R9). -/
def State.poke (s : State) (sp : Space) (i : Nat) (bytes : List Byte) : State :=
  { s with mem := cellsPut s.mem (sp.base + i) bytes }

/-- `n` zero bytes from index 0 of a window (42_lzw.md R163, 43_png_unfilter.md R214, 41_pixel_buffer.md R140). -/
def State.zeroFill (s : State) (sp : Space) (n : Nat) : State := s.poke sp 0 (List.replicate n 0)

/-- Refuse a command or drop a host write: CMDERR is set and nothing else changes (40_control.md R111, 20_memory.md R66). -/
def refuse (s : State) : State := { s with cmdErr := true }

/-- `raise Fault(CODE)` (00_scope.md R9, 60_exceptions.md R262): the one way a fault is taken. -/
def raise (code : FaultCode) (s : State) : State :=
  { s with engine := .fault, faultCode := code, endReason := .noReason }

/-- A fault of a pixel-buffer command: UNIT becomes PB with it (41_pixel_buffer.md R132). -/
def raisePb (code : FaultCode) (s : State) : State := raise code { s with unit := .pb }

/-- `done(REASON)` (00_scope.md R9, 60_exceptions.md R270). -/
def finish (reason : EndReason) (s : State) : State := { s with engine := .done, endReason := reason }

/-- The first effect of an accepted start command (40_control.md R113). -/
def beginUnit (u : UnitSel) (s : State) : State :=
  { s with unit := u, faultCode := .noFault, endReason := .noReason }

/-- `n` bytes from index 0 of a window become unspecified, each a free value of its own (40_control.md R117, 93 U6). -/
def State.scramble (s : State) (sp : Space) (n : Nat) : State :=
  { s.poke sp 0 ((List.range n).map fun i => Config.freeBits 8 (s.free + i)) with free := s.free + n }

/-- What stopping a running unit does to the buffers: their used regions become unspecified (40_control.md R116, R117). -/
def scrambleOutput (s : State) : State :=
  if s.outFmt.mask then (s.scramble .outbuf s.usedOut).scramble .maskbuf s.usedMask
  else s.scramble .outbuf s.usedOut

/-- The LZW unit with unspecified contents (10_state.md R50). The three values that LZW_STAT shows are 0, which the
register's reset value fixes (70_reset_and_hazards.md R292; log 4). -/
def unspecifiedLzw (n : Nat) : Lzw where
  dataSize := 0
  clearCode := Config.freeBits 9 n
  endCode := Config.freeBits 9 (n + 1)
  codeSize := 0
  available := 0
  oldCode := if Config.freeBits 1 n = 0 then none else some (Config.freeBits 12 n)
  first := Config.freeBits 8 n
  datum := Config.freeBits 19 n
  bits := Config.freeBits 5 n
  count := Config.freeBits 8 (n + 1)
  top := Config.freeBits 13 n
  pfx := Table.fresh 12 n
  sfx := Table.fresh 8 n
  stack := Table.fresh 8 (n + 1)

/-- The PNG unit with unspecified contents (10_state.md R50). -/
def unspecifiedPng (n : Nat) : Png where
  bands := Config.freeBits 3 n
  alpha := (Config.freeBits 1 (n + 1)).getLsbD 0
  bpp := Config.freeBits 4 n
  pass := Config.freeBits 3 (n + 1)
  passWidth := Config.freeBits 32 n
  passHeight := Config.freeBits 32 (n + 1)
  rowBytes := Config.freeBits 32 (n + 2)
  srcY := Config.freeBits 32 (n + 3)
  curr := Table.fresh 8 (n + 2)
  prior := Table.fresh 8 (n + 3)

/-- The effect of a reset on registers and units (70_reset_and_hazards.md R290 to R292): every register takes its reset
value and every unit value becomes unspecified. This is the way out of FAULT (60_exceptions.md R275). Taken while BUSY it
resets IN_POS, PIXCNT and what LZW_STAT shows as well, which R302 leaves unspecified (DESIGN CHOICE, log 30). -/
def resetRegs (s : State) : State :=
  { s with
    engine := .idle
    cmdErr := false
    termSeen := false
    faultCode := .noFault
    endReason := .noReason
    unit := .noUnit
    irqEn := false
    width := 0
    height := 0
    inFmt := ⟨0, 0, false⟩
    outFmt := ⟨0, 0, false⟩
    inLen := 0
    inPos := 0
    pixCnt := 0
    pxX := 0
    pxY := 0
    pxC := 0
    pxV := 0
    lzw := unspecifiedLzw s.free
    png := unspecifiedPng s.free
    free := s.free + 8 }

/-- The reset input (70_reset_and_hazards.md R290): a reset after which the buffers hold any values (log 17). -/
def powerOnReset (s : State) : State := { resetRegs s with mem := [], epoch := s.epoch + 1 }

/-- `readByte()` (42_lzw.md R162): the next input byte and the state after it is consumed, or nothing when IN_POS has
reached IN_LEN. The caller raises PrematureEndOfStream then. -/
def readByte? (s : State) : Option (Byte × State) :=
  if s.inLen.toNat ≤ s.inPos.toNat then none
  else some (s.peek .inbuf s.inPos.toNat, { s with inPos := s.inPos + 1 })

/-- The next `n` input bytes. -/
def inputBytes (s : State) (n : Nat) : List Byte := (List.range n).map fun i => s.peek .inbuf (s.inPos.toNat + i)

/-- `setPixel(x, y, c, v)` (41_pixel_buffer.md R135): below 8 bits the shifted value is ORed into its byte, unmasked
(R143); at 8 and 16 bits the bytes are replaced. The caller has checked the bounds and the depth. -/
def setPixel (s : State) (x y c v : Nat) : State :=
  let b := s.byteIdx x y c
  if s.outFmt.bpc.toNat = 8 then s.poke .outbuf b [BitVec.ofNat 8 v]
  else if s.outFmt.bpc.toNat = 16 then s.poke .outbuf b [BitVec.ofNat 8 (v / 256), BitVec.ofNat 8 v]
  else s.poke .outbuf b [s.peek .outbuf b ||| BitVec.ofNat 8 (v <<< s.shiftOf x y c)]

/-- `getPixel(x, y, c)` (41_pixel_buffer.md R136). -/
def getPixel (s : State) (x y c : Nat) : Nat :=
  let b := s.byteIdx x y c
  if s.outFmt.bpc.toNat = 8 then (s.peek .outbuf b).toNat
  else if s.outFmt.bpc.toNat = 16 then (s.peek .outbuf b).toNat * 256 + (s.peek .outbuf (b + 1)).toNat
  else ((s.peek .outbuf b).toNat >>> s.shiftOf x y c) % 2 ^ s.outFmt.bpc.toNat

end Sys2Proof.Machine
end

