-- ==== Sys2Proof/Machine/Control.lean ====
section
/-! DEFINITION. The control commands and the reserved command words (40_control.md R115 to R118). -/

namespace Sys2Proof.Machine

/-- NOP (40_control.md R115): accepted in every state, no effect. -/
def execNop (s : State) : Result := .next s

/-- RESET (40_control.md R116): accepted in every state. Taken while BUSY it leaves the used output regions unspecified,
as ABORT does (70_reset_and_hazards.md R291); otherwise the buffers keep their bytes. IN_POS, PIXCNT and LZW_STAT read 0
then too, the reset values of R116 and R292, although R302 calls them unspecified (DESIGN CHOICE, log 30). -/
def execReset (s : State) : Result :=
  .next (resetRegs (if s.isBusy then scrambleOutput s else s))

/-- The values that are unspecified after an ABORT taken while BUSY: IN_POS, PIXCNT and LZW_STAT (40_control.md R117,
93 U7; log 12). -/
def scrambleCounters (s : State) : State :=
  { s with
    inPos := Config.freeBits 32 s.free
    pixCnt := Config.freeBits 32 (s.free + 1)
    lzw := { s.lzw with
      dataSize := Config.freeBits 4 s.free
      codeSize := Config.freeBits 4 (s.free + 1)
      available := Config.freeBits 13 s.free }
    free := s.free + 2 }

/-- ABORT (40_control.md R117): stops a running unit and leaves its output unspecified; in IDLE and DONE it clears the end
reason; refused in FAULT (R110). -/
def execAbort (s : State) : Result :=
  if !s.acceptsAbort then .next (refuse s)
  else if s.isBusy then .next { scrambleCounters (scrambleOutput s) with engine := .idle }
  else .next { s with engine := .idle, endReason := .noReason }

/-- CMD_RESERVED_OP (40_control.md R118): refused in every state. -/
def execCmdReservedOp (_low : BitVec 3) (s : State) : Result := .next (refuse s)

/-- CMD_RESERVED_RSVD_B4 (40_control.md R118): refused in every state. -/
def execCmdReservedRsvdB4 (_low : BitVec 4) (s : State) : Result := .next (refuse s)

/-- CMD_RESERVED_RSVD_B5 (40_control.md R118): refused in every state. -/
def execCmdReservedRsvdB5 (_low : BitVec 5) (s : State) : Result := .next (refuse s)

/-- CMD_RESERVED_RSVD_B6 (40_control.md R118): refused in every state. -/
def execCmdReservedRsvdB6 (_low : BitVec 6) (s : State) : Result := .next (refuse s)

/-- CMD_RESERVED_RSVD_B7 (40_control.md R118): refused in every state. -/
def execCmdReservedRsvdB7 (_low : BitVec 7) (s : State) : Result := .next (refuse s)

/-- CMD_RESERVED_RSVD_B8 (40_control.md R118): refused in every state. -/
def execCmdReservedRsvdB8 (_low : BitVec 8) (s : State) : Result := .next (refuse s)

/-- CMD_RESERVED_RSVD_B9 (40_control.md R118): refused in every state. -/
def execCmdReservedRsvdB9 (_low : BitVec 9) (s : State) : Result := .next (refuse s)

/-- CMD_RESERVED_RSVD_B10 (40_control.md R118): refused in every state. -/
def execCmdReservedRsvdB10 (_low : BitVec 10) (s : State) : Result := .next (refuse s)

/-- CMD_RESERVED_RSVD_B11 (40_control.md R118): refused in every state. -/
def execCmdReservedRsvdB11 (_low : BitVec 11) (s : State) : Result := .next (refuse s)

/-- CMD_RESERVED_RSVD_B12 (40_control.md R118): refused in every state. -/
def execCmdReservedRsvdB12 (_low : BitVec 12) (s : State) : Result := .next (refuse s)

/-- CMD_RESERVED_RSVD_B13 (40_control.md R118): refused in every state. -/
def execCmdReservedRsvdB13 (_low : BitVec 13) (s : State) : Result := .next (refuse s)

/-- CMD_RESERVED_RSVD_B14 (40_control.md R118): refused in every state. -/
def execCmdReservedRsvdB14 (_low : BitVec 14) (s : State) : Result := .next (refuse s)

/-- CMD_RESERVED_RSVD_B15 (40_control.md R118): refused in every state. -/
def execCmdReservedRsvdB15 (_low : BitVec 15) (s : State) : Result := .next (refuse s)

/-- CMD_RESERVED_RSVD_B16 (40_control.md R118): refused in every state. -/
def execCmdReservedRsvdB16 (_low : BitVec 16) (s : State) : Result := .next (refuse s)

/-- CMD_RESERVED_RSVD_B17 (40_control.md R118): refused in every state. -/
def execCmdReservedRsvdB17 (_low : BitVec 17) (s : State) : Result := .next (refuse s)

/-- CMD_RESERVED_RSVD_B18 (40_control.md R118): refused in every state. -/
def execCmdReservedRsvdB18 (_low : BitVec 18) (s : State) : Result := .next (refuse s)

/-- CMD_RESERVED_RSVD_B19 (40_control.md R118): refused in every state. -/
def execCmdReservedRsvdB19 (_low : BitVec 19) (s : State) : Result := .next (refuse s)

/-- CMD_RESERVED_RSVD_B20 (40_control.md R118): refused in every state. -/
def execCmdReservedRsvdB20 (_low : BitVec 20) (s : State) : Result := .next (refuse s)

/-- CMD_RESERVED_RSVD_B21 (40_control.md R118): refused in every state. -/
def execCmdReservedRsvdB21 (_low : BitVec 21) (s : State) : Result := .next (refuse s)

/-- CMD_RESERVED_RSVD_B22 (40_control.md R118): refused in every state. -/
def execCmdReservedRsvdB22 (_low : BitVec 22) (s : State) : Result := .next (refuse s)

/-- CMD_RESERVED_RSVD_B23 (40_control.md R118): refused in every state. -/
def execCmdReservedRsvdB23 (_low : BitVec 23) (s : State) : Result := .next (refuse s)

/-- CMD_RESERVED_RSVD_B24 (40_control.md R118): refused in every state. -/
def execCmdReservedRsvdB24 (_low : BitVec 24) (s : State) : Result := .next (refuse s)

/-- CMD_RESERVED_RSVD_B25 (40_control.md R118): refused in every state. -/
def execCmdReservedRsvdB25 (_low : BitVec 25) (s : State) : Result := .next (refuse s)

/-- CMD_RESERVED_RSVD_B26 (40_control.md R118): refused in every state. -/
def execCmdReservedRsvdB26 (_low : BitVec 26) (s : State) : Result := .next (refuse s)

/-- CMD_RESERVED_RSVD_B27 (40_control.md R118): refused in every state. -/
def execCmdReservedRsvdB27 (_low : BitVec 27) (s : State) : Result := .next (refuse s)

/-- CMD_RESERVED_RSVD_B28 (40_control.md R118): refused in every state. -/
def execCmdReservedRsvdB28 (_low : BitVec 28) (s : State) : Result := .next (refuse s)

/-- CMD_RESERVED_RSVD_B29 (40_control.md R118): refused in every state. -/
def execCmdReservedRsvdB29 (_low : BitVec 29) (s : State) : Result := .next (refuse s)

/-- CMD_RESERVED_RSVD_B30 (40_control.md R118): refused in every state. -/
def execCmdReservedRsvdB30 (_low : BitVec 30) (s : State) : Result := .next (refuse s)

/-- CMD_RESERVED_RSVD_B31 (40_control.md R118): refused in every state. -/
def execCmdReservedRsvdB31 (_low : BitVec 31) (s : State) : Result := .next (refuse s)

end Sys2Proof.Machine
end

