-- ==== Sys2Proof/Machine/Lzw.lean ====
section
/-! DEFINITION. The LZW unit (42_lzw.md): LZW_START, the code classes of 30_encoding.md R87, and the parts of its loop that
no encoded word selects. -/

namespace Sys2Proof.Machine

/-- `lzwInit()` (42_lzw.md R163). -/
def lzwInit (s : State) : State :=
  { s.zeroFill .outbuf (strideOf s.width.toNat 1 s.inFmt.bitDepth.toNat * s.height.toNat) with
    outFmt := ⟨s.inFmt.bitDepth, 1, false⟩
    inPos := 0
    pixCnt := 0
    termSeen := false
    lzw := { s.lzw with dataSize := 0, codeSize := 0, available := 0 } }

/-- LZW_START (42_lzw.md R160): the checks and the initialisation are part of the command; the header and the loop run
afterwards (40_control.md R114). -/
def execLzwStart (s : State) : Result :=
  if !s.acceptsWork then .next (refuse s)
  else if !s.lzwCheck then .next (raise .unsupportedConfiguration (beginUnit .lzw s))
  else .next { lzwInit (beginUnit .lzw s) with engine := .busy }

/-- The LZW unit after a legal data size (42_lzw.md R164). The entries from clearCode up become unspecified (93 U8). -/
def lzwOpen (ds gen : Nat) (l : Lzw) : Lzw :=
  { l with
    dataSize := BitVec.ofNat 4 ds
    clearCode := BitVec.ofNat 9 (2 ^ ds)
    endCode := BitVec.ofNat 9 (2 ^ ds + 1)
    pfx := (Table.fresh 12 gen).put 0 (List.replicate (2 ^ ds) 0)
    sfx := (Table.fresh 8 gen).put 0 ((List.range (2 ^ ds)).map (BitVec.ofNat 8))
    codeSize := BitVec.ofNat 4 (ds + 1)
    available := BitVec.ofNat 13 (2 ^ ds + 2)
    oldCode := none
    first := 0
    datum := 0
    bits := 0
    count := 0
    top := 0 }

/-- `lzwHeader()` (42_lzw.md R164): a missing byte, then an illegal data size, then the start of the run. -/
def lzwHeader (s : State) : State :=
  match readByte? s with
  | none => raise .prematureEndOfStream s
  | some (b, s1) =>
    if b.toNat < 2 || 8 < b.toNat then raise .corruptBlock s1
    else { s1 with lzw := lzwOpen b.toNat s1.free s1.lzw, free := s1.free + 1 }

/-- `loadByte(b)` (30_encoding.md R85). -/
def Lzw.loadByte (l : Lzw) (b : Byte) : Lzw :=
  { l with
    datum := l.datum + (b.setWidth 19 <<< l.bits.toNat)
    bits := l.bits + 8 }

/-- The code that `takeCode()` takes (30_encoding.md R85), zero-extended to 12 bits. -/
def Lzw.nextCode (l : Lzw) : BitVec 12 := BitVec.ofNat 12 (l.datum.toNat % 2 ^ l.codeSize.toNat)

/-- What `takeCode()` leaves (30_encoding.md R85). -/
def Lzw.dropCode (l : Lzw) : Lzw :=
  { l with
    datum := l.datum >>> l.codeSize.toNat
    bits := l.bits - l.codeSize.setWidth 5 }

/-- `push(v)` (10_state.md R43); nothing when the stack is full. -/
def Lzw.push? (l : Lzw) (v : Byte) : Option Lzw :=
  if Config.lzwStackEntries ≤ l.top.toNat then none
  else some { l with stack := l.stack.put l.top.toNat [v], top := l.top + 1 }

/-- The prefix walk of 42_lzw.md R173: push suffix bytes until a code not above clearCode, and answer that code. Nothing
when a push finds the stack full; the fuel is one more than the pushes a stack can take. -/
def walkPrefix : Nat → BitVec 12 → Lzw → Option (BitVec 12 × Lzw)
  | 0, _, _ => none
  | fuel + 1, code, l =>
    if l.clearCode.toNat < code.toNat then
      (l.push? (l.sfx.get code.toNat)).bind fun l1 => walkPrefix fuel (l.pfx.get code.toNat) l1
    else some (code, l)

/-- The growth check of 42_lzw.md R168. -/
def Lzw.grow (l : Lzw) : Lzw :=
  if l.available.toNat = 2 ^ l.codeSize.toNat && l.available.toNat < Config.lzwTableEntries then
    { l with codeSize := l.codeSize + 1 }
  else l

/-- The new dictionary entry of 42_lzw.md R173, then the growth check of R168 and the new previous code. -/
def Lzw.addEntry (l : Lzw) (old inCode : BitVec 12) : Lzw :=
  { Lzw.grow
      { l with
        pfx := l.pfx.put l.available.toNat [old]
        sfx := l.sfx.put l.available.toNat [l.first]
        available := l.available + 1 } with
    oldCode := some inCode }

/-- The code that the prefix walk starts at, and the unit at its start: KWKWK pushes the last first pixel and goes on with
the previous code (42_lzw.md R173). -/
def Lzw.walkStart? (l : Lzw) (old code : BitVec 12) : Option (BitVec 12 × Lzw) :=
  if code.toNat = l.available.toNat then (l.push? l.first).map fun l1 => (old, l1) else some (code, l)

/-- `decodeStep(code)` (42_lzw.md R173, with the table-full end of R174). -/
def decodeStep (code : BitVec 12) (s : State) : Result :=
  match s.lzw.oldCode with
  | none => .fault .noOldCode
  | some old =>
    match (s.lzw.walkStart? old code).bind fun r => walkPrefix (Config.lzwStackEntries + 1) r.1 r.2 with
    | none => .fault .stackOverflow
    | some (root, l) =>
      let l := { l with first := l.sfx.get root.toNat }
      if Config.lzwTableEntries ≤ l.available.toNat then .next (finish .tableFull { s with lzw := l })
      else
        match l.push? l.first with
        | none => .fault .stackOverflow
        | some l => .next { s with lzw := l.addEntry old code }

/-- LZW.CLEAR (42_lzw.md R170). -/
def execLzwClear (_code : BitVec 12) (s : State) : Result :=
  .next { s with lzw := { s.lzw with
    codeSize := s.lzw.dataSize + 1
    available := s.lzw.clearCode.setWidth 13 + 2
    oldCode := none } }

/-- LZW.END (42_lzw.md R171). -/
def execLzwEnd (_code : BitVec 12) (s : State) : Result := .next (finish .endCode s)

/-- LZW.BAD (42_lzw.md R175): a fault or a normal end, as the parameter BAD_CODE_POLICY says. -/
def execLzwBad (_code : BitVec 12) (s : State) : Result :=
  match s.params.badCode with
  | .fault => .next (raise .corruptBlock s)
  | .softStop => .next (finish .badCodeSoft s)

/-- LZW.FIRST (42_lzw.md R172). -/
def execLzwFirst (code : BitVec 12) (s : State) : Result :=
  match s.lzw.push? (s.lzw.sfx.get code.toNat) with
  | none => .fault .stackOverflow
  | some l => .next { s with lzw := { l with oldCode := some code, first := code.setWidth 8 } }

/-- LZW.KWKWK (42_lzw.md R173). -/
def execLzwKwkwk (code : BitVec 12) (s : State) : Result := decodeStep code s

/-- LZW.LIT (42_lzw.md R173). -/
def execLzwLit (code : BitVec 12) (s : State) : Result := decodeStep code s

/-- LZW.DICT (42_lzw.md R173). -/
def execLzwDict (code : BitVec 12) (s : State) : Result := decodeStep code s

/-- `popPixel()` (42_lzw.md R178): the pixel on top of the stack goes to the place that PIXCNT gives (R179). -/
def popPixel (s : State) : State :=
  let k := s.pixCnt.toNat
  let v := s.lzw.stack.get (s.lzw.top.toNat - 1)
  let placed :=
    setPixel s (k % s.width.toNat) (gifRow s.inFmt.interlace s.height.toNat (k / s.width.toNat)) 0 v.toNat
  { placed with pixCnt := s.pixCnt + 1, lzw := { s.lzw with top := s.lzw.top - 1 } }

end Sys2Proof.Machine
end

