-- ==== Sys2Proof/Machine/PixelBuffer.lean ====
section
/-! DEFINITION. The pixel-buffer commands (41_pixel_buffer.md R140 to R142). -/

namespace Sys2Proof.Machine

/-- PB_CLEAR (41_pixel_buffer.md R140). -/
def execPbClear (s : State) : Result :=
  if !s.acceptsWork then .next (refuse s)
  else if !s.geomOK then .next (raisePb .unsupportedConfiguration s)
  else if s.outFmt.mask then .next ((s.zeroFill .outbuf s.usedOut).zeroFill .maskbuf s.usedMask)
  else .next (s.zeroFill .outbuf s.usedOut)

/-- PB_SET (41_pixel_buffer.md R141): the geometry is checked before the bounds (60_exceptions.md R265). -/
def execPbSet (s : State) : Result :=
  if !s.acceptsWork then .next (refuse s)
  else if !s.geomOK then .next (raisePb .unsupportedConfiguration s)
  else if !s.pxInBounds then .next (raisePb .boundsCheck s)
  else .next (setPixel s s.pxX.toNat s.pxY.toNat s.pxC.toNat s.pxV.toNat)

/-- PB_GET (41_pixel_buffer.md R142): the sample is zero-extended into PX_V (R138). -/
def execPbGet (s : State) : Result :=
  if !s.acceptsWork then .next (refuse s)
  else if !s.geomOK then .next (raisePb .unsupportedConfiguration s)
  else if !s.pxInBounds then .next (raisePb .boundsCheck s)
  else .next { s with pxV := BitVec.ofNat 32 (getPixel s s.pxX.toNat s.pxY.toNat s.pxC.toNat) }

end Sys2Proof.Machine
end

