-- ==== Sys2Proof/Machine/Png.lean ====
section
/-! DEFINITION. The PNG unit (43_png_unfilter.md): PNG_START, the filter types, placement and the passes. -/

namespace Sys2Proof.Machine

/-- The Paeth predictor on exact integers (43_png_unfilter.md R221, 90_conflicts.md C3). -/
def paeth (a b c : Nat) : Nat :=
  let p : Int := (a : Int) + b - c
  let pa := (p - a).natAbs
  let pb := (p - b).natAbs
  let pc := (p - c).natAbs
  if pa ≤ pb ∧ pa ≤ pc then a else if pb ≤ pc then b else c

/-- A filter's predictor: the value added to a raw byte, from its left, above and upper-left neighbours
(43_png_unfilter.md R225). -/
abbrev Predictor := Nat → Nat → Nat → Nat

/-- FILTER.NONE's predictor (43_png_unfilter.md R216). -/
def predNone : Predictor := fun _ _ _ => 0

/-- FILTER.SUB's predictor (43_png_unfilter.md R217). -/
def predSub : Predictor := fun a _ _ => a

/-- FILTER.UP's predictor (43_png_unfilter.md R218). -/
def predUp : Predictor := fun _ b _ => b

/-- FILTER.AVG's predictor, the sum not reduced before halving (43_png_unfilter.md R219). -/
def predAvg : Predictor := fun a b _ => (a + b) / 2

/-- FILTER.PAETH's predictor (43_png_unfilter.md R220). -/
def predPaeth : Predictor := paeth

/-- The prediction for the byte after `before` in a row: the left and upper-left neighbours are 0 for the first `bpp`
bytes (43_png_unfilter.md R224, R225). -/
def predictAt (pred : Predictor) (bpp : Nat) (prior before : List Byte) : Nat :=
  let i := before.length
  let a := if bpp ≤ i then (before.getD (i - bpp) 0).toNat else 0
  let b := (prior.getD i 0).toNat
  let c := if bpp ≤ i then (prior.getD (i - bpp) 0).toNat else 0
  pred a b c

/-- `unfilter(f)` (43_png_unfilter.md R225): reconstruct the bytes of a row in increasing order; `before` holds the bytes
already reconstructed. Only the sum is taken mod 256. -/
def unfilterFrom (pred : Predictor) (bpp : Nat) (prior : List Byte) : List Byte → List Byte → List Byte
  | before, [] => before
  | before, x :: raw =>
    unfilterFrom pred bpp prior (before ++ [BitVec.ofNat 8 (x.toNat + predictAt pred bpp prior before)]) raw

/-- A whole scanline reconstructed. -/
def unfilterRow (pred : Predictor) (bpp : Nat) (prior raw : List Byte) : List Byte := unfilterFrom pred bpp prior [] raw

/-- One sample of `placeRow` (43_png_unfilter.md R230): the alpha sample goes to MASKBUF (R231), the others to OUTBUF; a
16-bit sample is cut to its high byte (41_pixel_buffer.md R144). -/
def placeSample (row : List Byte) (x y sx : Nat) (s : State) (k : Nat) : State :=
  let bd := s.inFmt.bitDepth.toNat
  let v0 := sampleOf bd row (sx * s.png.bands.toNat + k)
  let v := if bd = 16 then down8 v0 else v0
  if s.png.alpha && k + 1 == s.png.bands.toNat then s.poke .maskbuf (y * s.width.toNat + x) [BitVec.ofNat 8 v]
  else setPixel s x y k v

/-- One pixel of `placeRow` at its output coordinates (43_png_unfilter.md R229, R230, R232). -/
def placePixel (row : List Byte) (s : State) (sx : Nat) : State :=
  let g := passGeom s.inFmt.interlace s.png.pass.toNat
  let x := g.xOff + g.xStep * sx
  let y := g.yOff + g.yStep * s.png.srcY.toNat
  let s1 := (List.range s.png.bands.toNat).foldl (placeSample row x y sx) s
  { s1 with pixCnt := s1.pixCnt + 1 }

/-- `placeRow` (43_png_unfilter.md R230). -/
def placeRow (row : List Byte) (s : State) : State :=
  (List.range s.png.passWidth.toNat).foldl (placePixel row) s

/-- The first pass from `pass` on that is not empty (43_png_unfilter.md R223, R226). -/
def findPass (interlace : Bool) (w h : Nat) : Nat → Nat → Option Nat
  | 0, _ => none
  | fuel + 1, pass =>
    if lastPass interlace < pass then none
    else if passWidthOf interlace w pass = 0 || passHeightOf interlace h pass = 0 then findPass interlace w h fuel (pass + 1)
    else some pass

/-- The start of a pass (43_png_unfilter.md R223, R224, R227): its size and row length, and a prior row of zeros. -/
def beginPass (pass : Nat) (s : State) : State :=
  let pw := passWidthOf s.inFmt.interlace s.width.toNat pass
  let n := ceilDiv (s.png.bands.toNat * pw * s.inFmt.bitDepth.toNat) 8
  { s with png := { s.png with
      pass := BitVec.ofNat 3 pass
      passWidth := BitVec.ofNat 32 pw
      passHeight := BitVec.ofNat 32 (passHeightOf s.inFmt.interlace s.height.toNat pass)
      rowBytes := BitVec.ofNat 32 n
      srcY := 0
      prior := s.png.prior.put 0 (List.replicate n 0) } }

/-- Go on with the first non-empty pass from `pass` on, or end the decode (43_png_unfilter.md R223, R226, R233). -/
def enterPass (pass : Nat) (s : State) : State :=
  match findPass s.inFmt.interlace s.width.toNat s.height.toNat 7 pass with
  | none => finish .rowsDone s
  | some p => beginPass p s

/-- After a row: the next row of the pass, or the next pass (43_png_unfilter.md R223). -/
def advanceRow (s : State) : State :=
  if s.png.srcY.toNat + 1 < s.png.passHeight.toNat then { s with png := { s.png with srcY := s.png.srcY + 1 } }
  else enterPass (s.png.pass.toNat + 1) s

/-- `pngInit()` (43_png_unfilter.md R213, R214). -/
def pngInit (s : State) : State :=
  let bd := s.inFmt.bitDepth.toNat
  let ct := s.inFmt.colorType.toNat
  let s1 := { s with outFmt := pngOutFmt ct bd }
  let s2 := s1.zeroFill .outbuf s1.usedOut
  let s3 := if pngAlpha ct then s2.zeroFill .maskbuf s1.usedMask else s2
  { s3 with
    inPos := 0
    pixCnt := 0
    png := { s.png with
      bands := BitVec.ofNat 3 (pngBands ct)
      alpha := pngAlpha ct
      bpp := BitVec.ofNat 4 (max 1 (pngBands ct * bd / 8)) } }

/-- PNG_START (43_png_unfilter.md R210): the checks, the initialisation and the start of the first pass are part of the
command; the scanlines follow (40_control.md R114). -/
def execPngStart (s : State) : Result :=
  if !s.acceptsWork then .next (refuse s)
  else if !s.pngCheck then .next (raise .unsupportedConfiguration (beginUnit .png s))
  else .next (enterPass 1 { pngInit (beginUnit .png s) with engine := .busy })

/-- The scanline of the current row, reconstructed (43_png_unfilter.md R212, R225). -/
def scanline (pred : Predictor) (s : State) : List Byte :=
  unfilterRow pred s.png.bpp.toNat (s.png.prior.prefixList s.png.rowBytes.toNat) (inputBytes s s.png.rowBytes.toNat)

/-- One row after its filter byte (43_png_unfilter.md R212, R223): a short row faults before any of it is used; else read,
reconstruct, place, keep as the prior row, and go on. -/
def filterRow (pred : Predictor) (s : State) : Result :=
  if s.inLen.toNat < s.inPos.toNat + s.png.rowBytes.toNat then .next (raise .prematureEndOfStream s)
  else
    let row := scanline pred s
    let s1 := { s with
      inPos := s.inPos + s.png.rowBytes
      png := { s.png with curr := s.png.curr.put 0 row } }
    let s2 := placeRow row s1
    .next (advanceRow { s2 with png := { s2.png with prior := s2.png.prior.put 0 row } })

/-- FILTER.NONE (43_png_unfilter.md R216). -/
def execFilterNone (s : State) : Result := filterRow predNone s

/-- FILTER.SUB (43_png_unfilter.md R217). -/
def execFilterSub (s : State) : Result := filterRow predSub s

/-- FILTER.UP (43_png_unfilter.md R218). -/
def execFilterUp (s : State) : Result := filterRow predUp s

/-- FILTER.AVG (43_png_unfilter.md R219). -/
def execFilterAvg (s : State) : Result := filterRow predAvg s

/-- FILTER.PAETH (43_png_unfilter.md R220). -/
def execFilterPaeth (s : State) : Result := filterRow predPaeth s

/-- FILTER.RESERVED_05 (43_png_unfilter.md R222). -/
def execFilterReserved05 (s : State) : Result := .next (raise .corruptChunk s)

/-- FILTER.RESERVED_06 (43_png_unfilter.md R222). -/
def execFilterReserved06 (_low : BitVec 1) (s : State) : Result := .next (raise .corruptChunk s)

/-- FILTER.RESERVED_08 (43_png_unfilter.md R222). -/
def execFilterReserved08 (_low : BitVec 3) (s : State) : Result := .next (raise .corruptChunk s)

/-- FILTER.RESERVED_10 (43_png_unfilter.md R222). -/
def execFilterReserved10 (_low : BitVec 4) (s : State) : Result := .next (raise .corruptChunk s)

/-- FILTER.RESERVED_20 (43_png_unfilter.md R222). -/
def execFilterReserved20 (_low : BitVec 5) (s : State) : Result := .next (raise .corruptChunk s)

/-- FILTER.RESERVED_40 (43_png_unfilter.md R222). -/
def execFilterReserved40 (_low : BitVec 6) (s : State) : Result := .next (raise .corruptChunk s)

/-- FILTER.RESERVED_80 (43_png_unfilter.md R222). -/
def execFilterReserved80 (_low : BitVec 7) (s : State) : Result := .next (raise .corruptChunk s)

end Sys2Proof.Machine
end

