-- ==== Sys2Proof/Machine/SubBlock.lean ====
section
/-! DEFINITION. The sub-block length bytes of the LZW input (42_lzw.md R165, R166). The length byte has been consumed. -/

namespace Sys2Proof.Machine

/-- The part of `openSubBlock()` after a length that is not 0 (42_lzw.md R165): the whole block must be present. -/
def openSubBlock (len : Nat) (s : State) : Result :=
  if s.inLen.toNat < s.inPos.toNat + len then .next (raise .prematureEndOfStream s)
  else .next { s with lzw := { s.lzw with count := BitVec.ofNat 8 len } }

/-- SB.TERM (42_lzw.md R166). -/
def execSbTerm (s : State) : Result := .next (finish .terminator { s with termSeen := true })

/-- SB.DATA_01 (42_lzw.md R165): one data byte follows. -/
def execSbData01 (s : State) : Result := openSubBlock 1 s

/-- SB.DATA_02 (42_lzw.md R165): 2 to 3 data bytes follow. -/
def execSbData02 (low : BitVec 1) (s : State) : Result := openSubBlock (0x02 + low.toNat) s

/-- SB.DATA_04 (42_lzw.md R165): 4 to 7 data bytes follow. -/
def execSbData04 (low : BitVec 2) (s : State) : Result := openSubBlock (0x04 + low.toNat) s

/-- SB.DATA_08 (42_lzw.md R165): 8 to 15 data bytes follow. -/
def execSbData08 (low : BitVec 3) (s : State) : Result := openSubBlock (0x08 + low.toNat) s

/-- SB.DATA_10 (42_lzw.md R165): 16 to 31 data bytes follow. -/
def execSbData10 (low : BitVec 4) (s : State) : Result := openSubBlock (0x10 + low.toNat) s

/-- SB.DATA_20 (42_lzw.md R165): 32 to 63 data bytes follow. -/
def execSbData20 (low : BitVec 5) (s : State) : Result := openSubBlock (0x20 + low.toNat) s

/-- SB.DATA_40 (42_lzw.md R165): 64 to 127 data bytes follow. -/
def execSbData40 (low : BitVec 6) (s : State) : Result := openSubBlock (0x40 + low.toNat) s

/-- SB.DATA_80 (42_lzw.md R165): 128 to 255 data bytes follow. -/
def execSbData80 (low : BitVec 7) (s : State) : Result := openSubBlock (0x80 + low.toNat) s

end Sys2Proof.Machine
end

