-- ==== Sys2Proof/Machine/Dispatch.lean ====
section
/-! DEFINITION. The one dispatch: each instruction's meaning. -/

namespace Sys2Proof.Machine

def exec (i : Instr) (s : State) : Host.Outcome State Fault Refusal :=
  match i with
  | .nop => Sys2Proof.Machine.execNop s
  | .reset => Sys2Proof.Machine.execReset s
  | .abort => Sys2Proof.Machine.execAbort s
  | .pbClear => Sys2Proof.Machine.execPbClear s
  | .pbSet => Sys2Proof.Machine.execPbSet s
  | .pbGet => Sys2Proof.Machine.execPbGet s
  | .lzwStart => Sys2Proof.Machine.execLzwStart s
  | .pngStart => Sys2Proof.Machine.execPngStart s
  | .cmdReservedOp low => Sys2Proof.Machine.execCmdReservedOp low s
  | .cmdReservedRsvdB4 low => Sys2Proof.Machine.execCmdReservedRsvdB4 low s
  | .cmdReservedRsvdB5 low => Sys2Proof.Machine.execCmdReservedRsvdB5 low s
  | .cmdReservedRsvdB6 low => Sys2Proof.Machine.execCmdReservedRsvdB6 low s
  | .cmdReservedRsvdB7 low => Sys2Proof.Machine.execCmdReservedRsvdB7 low s
  | .cmdReservedRsvdB8 low => Sys2Proof.Machine.execCmdReservedRsvdB8 low s
  | .cmdReservedRsvdB9 low => Sys2Proof.Machine.execCmdReservedRsvdB9 low s
  | .cmdReservedRsvdB10 low => Sys2Proof.Machine.execCmdReservedRsvdB10 low s
  | .cmdReservedRsvdB11 low => Sys2Proof.Machine.execCmdReservedRsvdB11 low s
  | .cmdReservedRsvdB12 low => Sys2Proof.Machine.execCmdReservedRsvdB12 low s
  | .cmdReservedRsvdB13 low => Sys2Proof.Machine.execCmdReservedRsvdB13 low s
  | .cmdReservedRsvdB14 low => Sys2Proof.Machine.execCmdReservedRsvdB14 low s
  | .cmdReservedRsvdB15 low => Sys2Proof.Machine.execCmdReservedRsvdB15 low s
  | .cmdReservedRsvdB16 low => Sys2Proof.Machine.execCmdReservedRsvdB16 low s
  | .cmdReservedRsvdB17 low => Sys2Proof.Machine.execCmdReservedRsvdB17 low s
  | .cmdReservedRsvdB18 low => Sys2Proof.Machine.execCmdReservedRsvdB18 low s
  | .cmdReservedRsvdB19 low => Sys2Proof.Machine.execCmdReservedRsvdB19 low s
  | .cmdReservedRsvdB20 low => Sys2Proof.Machine.execCmdReservedRsvdB20 low s
  | .cmdReservedRsvdB21 low => Sys2Proof.Machine.execCmdReservedRsvdB21 low s
  | .cmdReservedRsvdB22 low => Sys2Proof.Machine.execCmdReservedRsvdB22 low s
  | .cmdReservedRsvdB23 low => Sys2Proof.Machine.execCmdReservedRsvdB23 low s
  | .cmdReservedRsvdB24 low => Sys2Proof.Machine.execCmdReservedRsvdB24 low s
  | .cmdReservedRsvdB25 low => Sys2Proof.Machine.execCmdReservedRsvdB25 low s
  | .cmdReservedRsvdB26 low => Sys2Proof.Machine.execCmdReservedRsvdB26 low s
  | .cmdReservedRsvdB27 low => Sys2Proof.Machine.execCmdReservedRsvdB27 low s
  | .cmdReservedRsvdB28 low => Sys2Proof.Machine.execCmdReservedRsvdB28 low s
  | .cmdReservedRsvdB29 low => Sys2Proof.Machine.execCmdReservedRsvdB29 low s
  | .cmdReservedRsvdB30 low => Sys2Proof.Machine.execCmdReservedRsvdB30 low s
  | .cmdReservedRsvdB31 low => Sys2Proof.Machine.execCmdReservedRsvdB31 low s
  | .lzwClear code => Sys2Proof.Machine.execLzwClear code s
  | .lzwEnd code => Sys2Proof.Machine.execLzwEnd code s
  | .lzwBad code => Sys2Proof.Machine.execLzwBad code s
  | .lzwFirst code => Sys2Proof.Machine.execLzwFirst code s
  | .lzwKwkwk code => Sys2Proof.Machine.execLzwKwkwk code s
  | .lzwLit code => Sys2Proof.Machine.execLzwLit code s
  | .lzwDict code => Sys2Proof.Machine.execLzwDict code s
  | .sbTerm => Sys2Proof.Machine.execSbTerm s
  | .sbData01 => Sys2Proof.Machine.execSbData01 s
  | .sbData02 low => Sys2Proof.Machine.execSbData02 low s
  | .sbData04 low => Sys2Proof.Machine.execSbData04 low s
  | .sbData08 low => Sys2Proof.Machine.execSbData08 low s
  | .sbData10 low => Sys2Proof.Machine.execSbData10 low s
  | .sbData20 low => Sys2Proof.Machine.execSbData20 low s
  | .sbData40 low => Sys2Proof.Machine.execSbData40 low s
  | .sbData80 low => Sys2Proof.Machine.execSbData80 low s
  | .filterNone => Sys2Proof.Machine.execFilterNone s
  | .filterSub => Sys2Proof.Machine.execFilterSub s
  | .filterUp => Sys2Proof.Machine.execFilterUp s
  | .filterAvg => Sys2Proof.Machine.execFilterAvg s
  | .filterPaeth => Sys2Proof.Machine.execFilterPaeth s
  | .filterReserved05 => Sys2Proof.Machine.execFilterReserved05 s
  | .filterReserved06 low => Sys2Proof.Machine.execFilterReserved06 low s
  | .filterReserved08 low => Sys2Proof.Machine.execFilterReserved08 low s
  | .filterReserved10 low => Sys2Proof.Machine.execFilterReserved10 low s
  | .filterReserved20 low => Sys2Proof.Machine.execFilterReserved20 low s
  | .filterReserved40 low => Sys2Proof.Machine.execFilterReserved40 low s
  | .filterReserved80 low => Sys2Proof.Machine.execFilterReserved80 low s

end Sys2Proof.Machine
end

