-- ==== Sys2Proof/Decode.lean ====
section
/-! DEFINITION. Decoding and encoding (30_encoding.md R80 to R91), the opcode table as rows of mask and match, and the
host's `decodeTableWord`. -/

namespace Sys2Proof

/-- The command that a 32-bit command word selects (30_encoding.md R80, R81); a word with a reserved bit set belongs
to the row of its highest set bit (R82). -/
def decodeCmd (w : Word) : Instr :=
  if w.getLsbD 31 then .cmdReservedRsvdB31 (w.setWidth 31)
  else if w.getLsbD 30 then .cmdReservedRsvdB30 (w.setWidth 30)
  else if w.getLsbD 29 then .cmdReservedRsvdB29 (w.setWidth 29)
  else if w.getLsbD 28 then .cmdReservedRsvdB28 (w.setWidth 28)
  else if w.getLsbD 27 then .cmdReservedRsvdB27 (w.setWidth 27)
  else if w.getLsbD 26 then .cmdReservedRsvdB26 (w.setWidth 26)
  else if w.getLsbD 25 then .cmdReservedRsvdB25 (w.setWidth 25)
  else if w.getLsbD 24 then .cmdReservedRsvdB24 (w.setWidth 24)
  else if w.getLsbD 23 then .cmdReservedRsvdB23 (w.setWidth 23)
  else if w.getLsbD 22 then .cmdReservedRsvdB22 (w.setWidth 22)
  else if w.getLsbD 21 then .cmdReservedRsvdB21 (w.setWidth 21)
  else if w.getLsbD 20 then .cmdReservedRsvdB20 (w.setWidth 20)
  else if w.getLsbD 19 then .cmdReservedRsvdB19 (w.setWidth 19)
  else if w.getLsbD 18 then .cmdReservedRsvdB18 (w.setWidth 18)
  else if w.getLsbD 17 then .cmdReservedRsvdB17 (w.setWidth 17)
  else if w.getLsbD 16 then .cmdReservedRsvdB16 (w.setWidth 16)
  else if w.getLsbD 15 then .cmdReservedRsvdB15 (w.setWidth 15)
  else if w.getLsbD 14 then .cmdReservedRsvdB14 (w.setWidth 14)
  else if w.getLsbD 13 then .cmdReservedRsvdB13 (w.setWidth 13)
  else if w.getLsbD 12 then .cmdReservedRsvdB12 (w.setWidth 12)
  else if w.getLsbD 11 then .cmdReservedRsvdB11 (w.setWidth 11)
  else if w.getLsbD 10 then .cmdReservedRsvdB10 (w.setWidth 10)
  else if w.getLsbD 9 then .cmdReservedRsvdB9 (w.setWidth 9)
  else if w.getLsbD 8 then .cmdReservedRsvdB8 (w.setWidth 8)
  else if w.getLsbD 7 then .cmdReservedRsvdB7 (w.setWidth 7)
  else if w.getLsbD 6 then .cmdReservedRsvdB6 (w.setWidth 6)
  else if w.getLsbD 5 then .cmdReservedRsvdB5 (w.setWidth 5)
  else if w.getLsbD 4 then .cmdReservedRsvdB4 (w.setWidth 4)
  else if w.getLsbD 3 then .cmdReservedOp (w.setWidth 3)
  else if w == 0 then .nop
  else if w == 1 then .reset
  else if w == 2 then .abort
  else if w == 3 then .pbClear
  else if w == 4 then .pbSet
  else if w == 5 then .pbGet
  else if w == 6 then .lzwStart
  else .pngStart

/-- The class of an LZW code: the first matching line of 30_encoding.md R87. -/
def decodeCode (c : LzwCtx) (code : BitVec 12) : Instr :=
  if c.isClear code then .lzwClear code
  else if c.isEnd code then .lzwEnd code
  else if c.isBad code then .lzwBad code
  else if c.isFirst code then .lzwFirst code
  else if c.isKwkwk code then .lzwKwkwk code
  else if c.isLit code then .lzwLit code
  else .lzwDict code

/-- The class of a sub-block length byte (30_encoding.md R88), by its highest set bit as the table's rows have it. -/
def decodeLen (b : Byte) : Instr :=
  if b.getLsbD 7 then .sbData80 (b.setWidth 7)
  else if b.getLsbD 6 then .sbData40 (b.setWidth 6)
  else if b.getLsbD 5 then .sbData20 (b.setWidth 5)
  else if b.getLsbD 4 then .sbData10 (b.setWidth 4)
  else if b.getLsbD 3 then .sbData08 (b.setWidth 3)
  else if b.getLsbD 2 then .sbData04 (b.setWidth 2)
  else if b.getLsbD 1 then .sbData02 (b.setWidth 1)
  else if b.getLsbD 0 then .sbData01
  else .sbTerm

/-- The filter that a filter type byte selects (30_encoding.md R90); 5 to 255 are reserved. -/
def decodeFilter (b : Byte) : Instr :=
  if b.getLsbD 7 then .filterReserved80 (b.setWidth 7)
  else if b.getLsbD 6 then .filterReserved40 (b.setWidth 6)
  else if b.getLsbD 5 then .filterReserved20 (b.setWidth 5)
  else if b.getLsbD 4 then .filterReserved10 (b.setWidth 4)
  else if b.getLsbD 3 then .filterReserved08 (b.setWidth 3)
  else if b == 0 then .filterNone
  else if b == 1 then .filterSub
  else if b == 2 then .filterUp
  else if b == 3 then .filterAvg
  else if b == 4 then .filterPaeth
  else if b == 5 then .filterReserved05
  else .filterReserved06 (b.setWidth 1)

/-- The instruction an encoded word stands for. Every word of every format stands for one (30_encoding.md R91): a
reserved word is an instruction whose effect is its refusal or its fault. -/
def decode (c : LzwCtx) : Encoding → Instr
  | .cmd w => decodeCmd w
  | .code code => decodeCode c code
  | .len b => decodeLen b
  | .filter b => decodeFilter b

/-- Why a string of bytes holds no encoded word. -/
inductive DecodeError where
  | truncated
  | codeTooWide
  deriving DecidableEq, Repr

/-- A little-endian word of bytes: the first byte holds bits 7 to 0 (00_scope.md R8). -/
def leWord (n : Nat) : List Byte → BitVec n
  | [] => 0
  | b :: bs => b.setWidth n ||| (leWord n bs <<< 8)

/-- Decode from bytes, total on any string of them: the instruction and the bytes after it. An LZW code is taken LSB
first from the next two bytes (30_encoding.md R84); the bits above its width belong to the next code. -/
def decodeBytes (c : LzwCtx) (f : Format) (bytes : List Byte) : Except DecodeError (Instr × List Byte) :=
  match f with
  | .cmd32 =>
      if bytes.length < 4 then .error .truncated
      else .ok (decode c (.cmd (leWord 32 (bytes.take 4))), bytes.drop 4)
  | .lzwCode =>
      if Config.lzwMaxCodeBits < c.codeSize.toNat then .error .codeTooWide
      else if bytes.length < 2 then .error .truncated
      else
        .ok (decode c (.code (BitVec.ofNat 12 ((leWord 16 (bytes.take 2)).toNat % 2 ^ c.codeSize.toNat))), bytes.drop 2)
  | .sbLen8 =>
      match bytes with
      | [] => .error .truncated
      | b :: rest => .ok (decode c (.len b), rest)
  | .filter8 =>
      match bytes with
      | [] => .error .truncated
      | b :: rest => .ok (decode c (.filter b), rest)

/-- The encoded word of an instruction, written from 30_encoding.md R81, R82, R87, R88, R90. -/
def encode : Instr → Encoding
  | .nop => .cmd 0x00000000#32
  | .reset => .cmd 0x00000001#32
  | .abort => .cmd 0x00000002#32
  | .pbClear => .cmd 0x00000003#32
  | .pbSet => .cmd 0x00000004#32
  | .pbGet => .cmd 0x00000005#32
  | .lzwStart => .cmd 0x00000006#32
  | .pngStart => .cmd 0x00000007#32
  | .cmdReservedOp low => .cmd (0x00000008#32 ||| low.setWidth 32)
  | .cmdReservedRsvdB4 low => .cmd (0x00000010#32 ||| low.setWidth 32)
  | .cmdReservedRsvdB5 low => .cmd (0x00000020#32 ||| low.setWidth 32)
  | .cmdReservedRsvdB6 low => .cmd (0x00000040#32 ||| low.setWidth 32)
  | .cmdReservedRsvdB7 low => .cmd (0x00000080#32 ||| low.setWidth 32)
  | .cmdReservedRsvdB8 low => .cmd (0x00000100#32 ||| low.setWidth 32)
  | .cmdReservedRsvdB9 low => .cmd (0x00000200#32 ||| low.setWidth 32)
  | .cmdReservedRsvdB10 low => .cmd (0x00000400#32 ||| low.setWidth 32)
  | .cmdReservedRsvdB11 low => .cmd (0x00000800#32 ||| low.setWidth 32)
  | .cmdReservedRsvdB12 low => .cmd (0x00001000#32 ||| low.setWidth 32)
  | .cmdReservedRsvdB13 low => .cmd (0x00002000#32 ||| low.setWidth 32)
  | .cmdReservedRsvdB14 low => .cmd (0x00004000#32 ||| low.setWidth 32)
  | .cmdReservedRsvdB15 low => .cmd (0x00008000#32 ||| low.setWidth 32)
  | .cmdReservedRsvdB16 low => .cmd (0x00010000#32 ||| low.setWidth 32)
  | .cmdReservedRsvdB17 low => .cmd (0x00020000#32 ||| low.setWidth 32)
  | .cmdReservedRsvdB18 low => .cmd (0x00040000#32 ||| low.setWidth 32)
  | .cmdReservedRsvdB19 low => .cmd (0x00080000#32 ||| low.setWidth 32)
  | .cmdReservedRsvdB20 low => .cmd (0x00100000#32 ||| low.setWidth 32)
  | .cmdReservedRsvdB21 low => .cmd (0x00200000#32 ||| low.setWidth 32)
  | .cmdReservedRsvdB22 low => .cmd (0x00400000#32 ||| low.setWidth 32)
  | .cmdReservedRsvdB23 low => .cmd (0x00800000#32 ||| low.setWidth 32)
  | .cmdReservedRsvdB24 low => .cmd (0x01000000#32 ||| low.setWidth 32)
  | .cmdReservedRsvdB25 low => .cmd (0x02000000#32 ||| low.setWidth 32)
  | .cmdReservedRsvdB26 low => .cmd (0x04000000#32 ||| low.setWidth 32)
  | .cmdReservedRsvdB27 low => .cmd (0x08000000#32 ||| low.setWidth 32)
  | .cmdReservedRsvdB28 low => .cmd (0x10000000#32 ||| low.setWidth 32)
  | .cmdReservedRsvdB29 low => .cmd (0x20000000#32 ||| low.setWidth 32)
  | .cmdReservedRsvdB30 low => .cmd (0x40000000#32 ||| low.setWidth 32)
  | .cmdReservedRsvdB31 low => .cmd (0x80000000#32 ||| low.setWidth 32)
  | .lzwClear code => .code code
  | .lzwEnd code => .code code
  | .lzwBad code => .code code
  | .lzwFirst code => .code code
  | .lzwKwkwk code => .code code
  | .lzwLit code => .code code
  | .lzwDict code => .code code
  | .sbTerm => .len 0x00#8
  | .sbData01 => .len 0x01#8
  | .sbData02 low => .len (0x02#8 ||| low.setWidth 8)
  | .sbData04 low => .len (0x04#8 ||| low.setWidth 8)
  | .sbData08 low => .len (0x08#8 ||| low.setWidth 8)
  | .sbData10 low => .len (0x10#8 ||| low.setWidth 8)
  | .sbData20 low => .len (0x20#8 ||| low.setWidth 8)
  | .sbData40 low => .len (0x40#8 ||| low.setWidth 8)
  | .sbData80 low => .len (0x80#8 ||| low.setWidth 8)
  | .filterNone => .filter 0x00#8
  | .filterSub => .filter 0x01#8
  | .filterUp => .filter 0x02#8
  | .filterAvg => .filter 0x03#8
  | .filterPaeth => .filter 0x04#8
  | .filterReserved05 => .filter 0x05#8
  | .filterReserved06 low => .filter (0x06#8 ||| low.setWidth 8)
  | .filterReserved08 low => .filter (0x08#8 ||| low.setWidth 8)
  | .filterReserved10 low => .filter (0x10#8 ||| low.setWidth 8)
  | .filterReserved20 low => .filter (0x20#8 ||| low.setWidth 8)
  | .filterReserved40 low => .filter (0x40#8 ||| low.setWidth 8)
  | .filterReserved80 low => .filter (0x80#8 ||| low.setWidth 8)

/-- A row of spec/opcode_table.json: a word of the format belongs to it when `word &&& mask = value`. The LZW rows
have neither in the table (their class depends on the context) and stand here with mask 0. -/
structure Row where
  format : Format
  mask : Nat
  value : Nat
  deriving DecidableEq, Repr

/-- The row of the table that an instruction's constructor stands for. -/
def Instr.row : Instr → Row
  | .nop => ⟨.cmd32, 0xFFFFFFFF, 0x00000000⟩
  | .reset => ⟨.cmd32, 0xFFFFFFFF, 0x00000001⟩
  | .abort => ⟨.cmd32, 0xFFFFFFFF, 0x00000002⟩
  | .pbClear => ⟨.cmd32, 0xFFFFFFFF, 0x00000003⟩
  | .pbSet => ⟨.cmd32, 0xFFFFFFFF, 0x00000004⟩
  | .pbGet => ⟨.cmd32, 0xFFFFFFFF, 0x00000005⟩
  | .lzwStart => ⟨.cmd32, 0xFFFFFFFF, 0x00000006⟩
  | .pngStart => ⟨.cmd32, 0xFFFFFFFF, 0x00000007⟩
  | .cmdReservedOp _ => ⟨.cmd32, 0xFFFFFFF8, 0x00000008⟩
  | .cmdReservedRsvdB4 _ => ⟨.cmd32, 0xFFFFFFF0, 0x00000010⟩
  | .cmdReservedRsvdB5 _ => ⟨.cmd32, 0xFFFFFFE0, 0x00000020⟩
  | .cmdReservedRsvdB6 _ => ⟨.cmd32, 0xFFFFFFC0, 0x00000040⟩
  | .cmdReservedRsvdB7 _ => ⟨.cmd32, 0xFFFFFF80, 0x00000080⟩
  | .cmdReservedRsvdB8 _ => ⟨.cmd32, 0xFFFFFF00, 0x00000100⟩
  | .cmdReservedRsvdB9 _ => ⟨.cmd32, 0xFFFFFE00, 0x00000200⟩
  | .cmdReservedRsvdB10 _ => ⟨.cmd32, 0xFFFFFC00, 0x00000400⟩
  | .cmdReservedRsvdB11 _ => ⟨.cmd32, 0xFFFFF800, 0x00000800⟩
  | .cmdReservedRsvdB12 _ => ⟨.cmd32, 0xFFFFF000, 0x00001000⟩
  | .cmdReservedRsvdB13 _ => ⟨.cmd32, 0xFFFFE000, 0x00002000⟩
  | .cmdReservedRsvdB14 _ => ⟨.cmd32, 0xFFFFC000, 0x00004000⟩
  | .cmdReservedRsvdB15 _ => ⟨.cmd32, 0xFFFF8000, 0x00008000⟩
  | .cmdReservedRsvdB16 _ => ⟨.cmd32, 0xFFFF0000, 0x00010000⟩
  | .cmdReservedRsvdB17 _ => ⟨.cmd32, 0xFFFE0000, 0x00020000⟩
  | .cmdReservedRsvdB18 _ => ⟨.cmd32, 0xFFFC0000, 0x00040000⟩
  | .cmdReservedRsvdB19 _ => ⟨.cmd32, 0xFFF80000, 0x00080000⟩
  | .cmdReservedRsvdB20 _ => ⟨.cmd32, 0xFFF00000, 0x00100000⟩
  | .cmdReservedRsvdB21 _ => ⟨.cmd32, 0xFFE00000, 0x00200000⟩
  | .cmdReservedRsvdB22 _ => ⟨.cmd32, 0xFFC00000, 0x00400000⟩
  | .cmdReservedRsvdB23 _ => ⟨.cmd32, 0xFF800000, 0x00800000⟩
  | .cmdReservedRsvdB24 _ => ⟨.cmd32, 0xFF000000, 0x01000000⟩
  | .cmdReservedRsvdB25 _ => ⟨.cmd32, 0xFE000000, 0x02000000⟩
  | .cmdReservedRsvdB26 _ => ⟨.cmd32, 0xFC000000, 0x04000000⟩
  | .cmdReservedRsvdB27 _ => ⟨.cmd32, 0xF8000000, 0x08000000⟩
  | .cmdReservedRsvdB28 _ => ⟨.cmd32, 0xF0000000, 0x10000000⟩
  | .cmdReservedRsvdB29 _ => ⟨.cmd32, 0xE0000000, 0x20000000⟩
  | .cmdReservedRsvdB30 _ => ⟨.cmd32, 0xC0000000, 0x40000000⟩
  | .cmdReservedRsvdB31 _ => ⟨.cmd32, 0x80000000, 0x80000000⟩
  | .lzwClear _ => ⟨.lzwCode, 0, 0⟩
  | .lzwEnd _ => ⟨.lzwCode, 0, 0⟩
  | .lzwBad _ => ⟨.lzwCode, 0, 0⟩
  | .lzwFirst _ => ⟨.lzwCode, 0, 0⟩
  | .lzwKwkwk _ => ⟨.lzwCode, 0, 0⟩
  | .lzwLit _ => ⟨.lzwCode, 0, 0⟩
  | .lzwDict _ => ⟨.lzwCode, 0, 0⟩
  | .sbTerm => ⟨.sbLen8, 0xFF, 0x00⟩
  | .sbData01 => ⟨.sbLen8, 0xFF, 0x01⟩
  | .sbData02 _ => ⟨.sbLen8, 0xFE, 0x02⟩
  | .sbData04 _ => ⟨.sbLen8, 0xFC, 0x04⟩
  | .sbData08 _ => ⟨.sbLen8, 0xF8, 0x08⟩
  | .sbData10 _ => ⟨.sbLen8, 0xF0, 0x10⟩
  | .sbData20 _ => ⟨.sbLen8, 0xE0, 0x20⟩
  | .sbData40 _ => ⟨.sbLen8, 0xC0, 0x40⟩
  | .sbData80 _ => ⟨.sbLen8, 0x80, 0x80⟩
  | .filterNone => ⟨.filter8, 0xFF, 0x00⟩
  | .filterSub => ⟨.filter8, 0xFF, 0x01⟩
  | .filterUp => ⟨.filter8, 0xFF, 0x02⟩
  | .filterAvg => ⟨.filter8, 0xFF, 0x03⟩
  | .filterPaeth => ⟨.filter8, 0xFF, 0x04⟩
  | .filterReserved05 => ⟨.filter8, 0xFF, 0x05⟩
  | .filterReserved06 _ => ⟨.filter8, 0xFE, 0x06⟩
  | .filterReserved08 _ => ⟨.filter8, 0xF8, 0x08⟩
  | .filterReserved10 _ => ⟨.filter8, 0xF0, 0x10⟩
  | .filterReserved20 _ => ⟨.filter8, 0xE0, 0x20⟩
  | .filterReserved40 _ => ⟨.filter8, 0xC0, 0x40⟩
  | .filterReserved80 _ => ⟨.filter8, 0x80, 0x80⟩

/-- The format of an encoded word. -/
def Encoding.format : Encoding → Format
  | .cmd _ => .cmd32
  | .code _ => .lzwCode
  | .len _ => .sbLen8
  | .filter _ => .filter8

/-- The bits of an encoded word as a number. -/
def Encoding.value : Encoding → Nat
  | .cmd w => w.toNat
  | .code c => c.toNat
  | .len b => b.toNat
  | .filter b => b.toNat

/-- An encoded word lies in a row of the table. -/
def Row.holds (r : Row) (e : Encoding) : Bool := e.format == r.format && (e.value &&& r.mask) == r.value

/-- The context right after `lzwHeader` for a data size `ds` (42_lzw.md R164). -/
def LzwCtx.start (ds : Nat) : LzwCtx where
  codeSize := BitVec.ofNat 4 (ds + 1)
  clearCode := BitVec.ofNat 9 (2 ^ ds)
  available := BitVec.ofNat 13 (2 ^ ds + 2)
  oldCode := none

/-- The bytes of `w`, the least significant first. -/
def bytesOfNat : Nat → Nat → List Byte
  | 0, _ => []
  | n + 1, w => BitVec.ofNat 8 w :: bytesOfNat n (w / 256)

/-- The instruction that this decoder reads from a table word of `nbits` bits (log 14): 32 bits are a command word. Eight
bits are a filter type byte: the table gives SBLEN8 and FILTER8 rows the same words, and only the sequencer state tells
them apart. The LZW rows have no table word. -/
def decodeTableWord (nbits w : Nat) : Option Instr :=
  let got (f : Format) :=
    match decodeBytes (LzwCtx.start 2) f (bytesOfNat (nbits / 8) w) with
    | .ok (i, _) => some i
    | .error _ => none
  match nbits with
  | 32 => got .cmd32
  | 8 => got .filter8
  | _ => none

end Sys2Proof
end

