-- ==== Sys2Proof/Machine/Bus.lean ====
section
/-! DEFINITION. Host accesses (20_memory.md R62, R65 to R67; 10_state.md R22). A write to CMD is not here: it is an
instruction, which the step fetches. -/

namespace Sys2Proof.Machine

/-- What an accepted access reaches: a register by its offset, or a byte of a window by its index. -/
inductive Target where
  | reg (offset : Nat)
  | cell (sp : Space) (i : Nat)
  deriving DecidableEq, Repr

/-- The window byte at a bus address, within the window's size (20_memory.md R62). -/
def windowAt (p : Params) (addr : Nat) (sp : Space) : Option Target :=
  if sp.base ≤ addr && addr - sp.base < windowSize p sp then some (.cell sp (addr - sp.base)) else none

/-- What an access reaches, or nothing when it is refused with a bus error: registers take aligned 32-bit accesses at
offsets 0x00 to 0x3C, buffer windows 8-bit accesses within their size (20_memory.md R65). -/
def busTarget (p : Params) (addr bits : Nat) : Option Target :=
  if bits = 32 then if addr % 4 = 0 && addr ≤ 0x3C then some (.reg addr) else none
  else if bits = 8 then
    ((windowAt p addr .inbuf).orElse fun _ => windowAt p addr .outbuf).orElse fun _ => windowAt p addr .maskbuf
  else none

/-- The value a register reads as (10_state.md R22 to R33). LZW_STAT reads any value while BUSY (R33, 93 U4). -/
def readReg (s : State) (offset : Nat) : Word :=
  if offset = 0x04 then s.status
  else if offset = 0x08 then BitVec.ofNat 32 s.irqEn.toNat
  else if offset = 0x0C then s.width
  else if offset = 0x10 then s.height
  else if offset = 0x14 then s.inFmt.toWord
  else if offset = 0x18 then s.outFmt.toWord
  else if offset = 0x1C then s.strideReg
  else if offset = 0x20 then s.inLen
  else if offset = 0x24 then s.inPos
  else if offset = 0x28 then s.pixCnt
  else if offset = 0x2C then s.pxX
  else if offset = 0x30 then s.pxY
  else if offset = 0x34 then s.pxC
  else if offset = 0x38 then s.pxV
  else if offset = 0x3C then if s.isBusy then Config.freeBits 32 s.free else s.lzwStat
  else 0

/-- Whether a register is one of the configuration and operand registers that a host write cannot change while BUSY
(20_memory.md R66). -/
def heldWhileBusy (offset : Nat) : Bool :=
  offset == 0x0C || offset == 0x10 || offset == 0x14 || offset == 0x18 || offset == 0x20 || offset == 0x2C ||
    offset == 0x30 || offset == 0x34 || offset == 0x38

/-- What a write that takes effect stores (10_state.md R22 to R31); a read-only register ignores it. -/
def storeReg (s : State) (offset : Nat) (v : Word) : State :=
  if offset = 0x08 then { s with irqEn := v.getLsbD 0 }
  else if offset = 0x0C then { s with width := v }
  else if offset = 0x10 then { s with height := v }
  else if offset = 0x14 then { s with inFmt := InFmt.ofWord v }
  else if offset = 0x18 then { s with outFmt := OutFmt.ofWord v }
  else if offset = 0x20 then { s with inLen := v }
  else if offset = 0x2C then { s with pxX := v }
  else if offset = 0x30 then { s with pxY := v }
  else if offset = 0x34 then { s with pxC := v }
  else if offset = 0x38 then { s with pxV := v }
  else s

/-- A register write other than to CMD: dropped with CMDERR while BUSY when the register is held (20_memory.md R66). -/
def writeReg (s : State) (offset : Nat) (v : Word) : State :=
  if s.isBusy && heldWhileBusy offset then refuse s else storeReg s offset v

/-- The byte a window reads as: OUTBUF and MASKBUF read any byte while BUSY (20_memory.md R66, 93 U3). -/
def readCell (s : State) (sp : Space) (i : Nat) : Byte :=
  if s.isBusy && sp != .inbuf then Config.freeBits 8 s.free else s.peek sp i

/-- A window write: dropped with CMDERR while BUSY (20_memory.md R66). -/
def writeCell (s : State) (sp : Space) (i : Nat) (b : Byte) : State := if s.isBusy then refuse s else s.poke sp i [b]

/-- Give the host its answer. -/
def respond (r : BusResp) (s : State) : State := { s with outbox := r :: s.outbox }

/-- One host access that is not a CMD write. -/
def busAccess (op : BusOp) (s : State) : State :=
  match busTarget s.params op.addr.toNat op.bits, op.write with
  | none, _ => respond .error s
  | some (.reg offset), false => respond (.data (readReg s offset)) s
  | some (.reg offset), true => respond .ok (writeReg s offset op.data)
  | some (.cell sp i), false => respond (.data ((readCell s sp i).setWidth 32)) s
  | some (.cell sp i), true => respond .ok (writeCell s sp i (op.data.setWidth 8))

/-- The command word of a write to CMD, which is the 32-bit register at offset 0 (10_state.md R23). -/
def commandWord? (op : BusOp) : Option Word := if op.write && op.bits == 32 && op.addr == 0 then some op.data else none

end Sys2Proof.Machine
end

