-- ==== Sys2Proof/Machine/Fetch.lean ====
section
/-! DEFINITION. What a step does next: which agent moves (log 7), the encoded word that the machine reads next and the
state after reading it, or work that no encoded word selects; and the placing of one table word as the next instruction. -/

namespace Sys2Proof.Machine

/-- What a step finds to do. -/
inductive Fetched where
  /-- An encoded word was read; the state is the one after reading it. -/
  | word (e : Encoding) (s : State)
  /-- Work without an encoded word is done: a host access, or a part of a unit's loop. -/
  | work (s : State)
  /-- Nothing to do: not BUSY and no host event pending. -/
  | wait
  /-- No step of the spec applies. -/
  | stuck (f : Fault)

/-- The host moves: it has an event pending, and the engine is not BUSY or it is the host's turn (60_exceptions.md R281). -/
def State.hostMoves (s : State) : Bool := !s.inbox.isEmpty && (!s.isBusy || s.hostNext)

/-- The oldest host event (20_memory.md R72): a CMD write is a command word, which the write's answer acknowledges. -/
def fetchHost (s : State) : Fetched :=
  match s.inbox with
  | [] => .wait
  | .powerOn :: rest => .work (powerOnReset { s with inbox := rest })
  | .bus op :: rest =>
    match commandWord? op with
    | some w => .word (.cmd w) (respond .ok { s with inbox := rest })
    | none => .work (busAccess op { s with inbox := rest })

/-- One pass through the loop of 42_lzw.md R169, with `lzwHeader` before its first (R160). The header is pending while
L.dataSize is 0, the value `lzwInit` gives it (R163; log 9). -/
def fetchLzw (s : State) : Fetched :=
  if s.lzw.dataSize = 0 then .work (lzwHeader s)
  else if s.width.toNat * s.height.toNat ≤ s.pixCnt.toNat then .work (finish .pixelsDone s)
  else if s.lzw.top ≠ 0 then .work (popPixel s)
  else if s.lzw.bits.toNat < s.lzw.codeSize.toNat then
    match readByte? s with
    | none => .work (raise .prematureEndOfStream s)
    | some (b, s1) =>
      if s.lzw.count = 0 then .word (.len b) s1
      else .work { s1 with lzw := { s1.lzw.loadByte b with count := s1.lzw.count - 1 } }
  else .word (.code s.lzw.nextCode) { s with lzw := s.lzw.dropCode }

/-- The filter byte of the next scanline (43_png_unfilter.md R212). -/
def fetchPng (s : State) : Fetched :=
  match readByte? s with
  | none => .work (raise .prematureEndOfStream s)
  | some (b, s1) => .word (.filter b) s1

/-- The running unit moves. -/
def fetchEngine (s : State) : Fetched :=
  match s.unit with
  | .lzw => fetchLzw s
  | .png => fetchPng s
  | .noUnit => .stuck .noRunningUnit
  | .pb => .stuck .noRunningUnit

/-- What a step finds to do. -/
def fetch (s : State) : Fetched :=
  if s.hostMoves then fetchHost s else if s.isBusy then fetchEngine s else .wait

/-- After every step that does something, who moves first next time is open again (93 U26; log 7). -/
def tick (s : State) : State := { s with hostNext := Config.hostFirst s.free, free := s.free + 1 }

/-- The outcome of a meaning, with `tick` after a next state. -/
def tickResult : Result → Result
  | .next s => .next (tick s)
  | .fault f => .fault f
  | .refused r => .refused r

/-- The state whose next step fetches command word `w`: the host writes it to CMD before anything else. -/
def placeCommand (s : State) (w : Word) : State :=
  { s with inbox := .bus ⟨true, 32, 0, w⟩ :: s.inbox, hostNext := true }

/-- The next step of a running LZW unit reads a sub-block length byte (42_lzw.md R165, R169). -/
def State.awaitsLength (s : State) : Bool :=
  s.isBusy && s.unit == .lzw && s.lzw.dataSize != 0 && s.pixCnt.toNat < s.width.toNat * s.height.toNat &&
    s.lzw.top == 0 && s.lzw.bits.toNat < s.lzw.codeSize.toNat && s.lzw.count == 0

/-- The state whose running unit reads `bytes` next, with IN_LEN large enough for them, and the engine about to move. -/
def placeInput (s : State) (bytes : List Byte) : State :=
  let s1 := s.poke .inbuf s.inPos.toNat bytes
  { s1 with
    inLen := BitVec.ofNat 32 (max s.inLen.toNat (s.inPos.toNat + bytes.length))
    hostNext := false }

/-- A PNG decode at its first filter byte: a one-pixel 8-bit gray image, started as PNG_START starts one (log 28). -/
def startOnePixel (s : State) : State :=
  let s1 := { s with width := 1, height := 1, inFmt := ⟨8, 0, false⟩ }
  enterPass 1 { pngInit (beginUnit .png s1) with engine := .busy }

/-- The state whose next step reads byte `b` as an encoded word: a running LZW unit that awaits a length byte reads it as
one, with the data it announces present; else it is the filter byte of a PNG scanline, of the running decode or of a
one-pixel one, with the scanline's bytes present as zeros (log 14, log 28). -/
def placeByte (s : State) (b : Byte) : State :=
  if s.awaitsLength then placeInput s (b :: List.replicate b.toNat 0)
  else
    let s1 := if s.isBusy && s.unit == .png then s else startOnePixel s
    placeInput s1 (b :: List.replicate s1.png.rowBytes.toNat 0)

end Sys2Proof.Machine
end

