-- ==== Sys2Proof/Machine/Step.lean ====
section
/-! DEFINITION. One step of the machine, and the placing of one encoded word as the next instruction. -/

namespace Sys2Proof.Machine

/-- One step: the encoded word read next is decoded and executed; other work is done as it is; with nothing to do the
machine stays as it is (70_reset_and_hazards.md R290; log 10). -/
def step (s : State) : Host.Outcome State Fault Refusal :=
  match fetch s with
  | .word e s1 => tickResult (exec (decode s.lzw.ctx e) s1)
  | .work s1 => .next (tick s1)
  | .wait => .next s
  | .stuck f => .fault f

/-- `s` with the table word `w` of `nbits` bits as the very next instruction (log 14, log 15). -/
def State.withFetchWord (s : State) (nbits w : Nat) : State :=
  match nbits with
  | 32 => placeCommand s (BitVec.ofNat 32 w)
  | 8 => placeByte s (BitVec.ofNat 8 w)
  | _ => s

end Sys2Proof.Machine
end

