-- ==== Sys2Proof/Safety.lean ====
section
/-! DEFINITION. The terms that claims use: legal geometries and configurations spelled as the spec spells them, what stays
equal between two states, the string of an LZW code, the forward filter, and the invariant of the machine. -/

namespace Sys2Proof.Machine

/-- The five conditions of `geomOK()` as 41_pixel_buffer.md R131 lists them. -/
structure GeomLegal (s : State) : Prop where
  size : 1 ≤ s.width.toNat ∧ 1 ≤ s.height.toNat
  depth : s.outFmt.bpc.toNat ∈ [1, 2, 4, 8, 16]
  comps : s.outFmt.ncomp.toNat ∈ [1, 2, 3, 4]
  fitsOut : strideOf s.width.toNat s.outFmt.ncomp.toNat s.outFmt.bpc.toNat * s.height.toNat ≤ s.params.outbufBytes
  fitsMask : s.outFmt.mask = true → s.width.toNat * s.height.toNat ≤ s.params.maskbufBytes

/-- `inBounds(x, y, c)` (41_pixel_buffer.md R137). -/
def InBounds (s : State) (x y c : Nat) : Prop :=
  x < s.width.toNat ∧ y < s.height.toNat ∧ c < s.outFmt.ncomp.toNat

/-- The four conditions of `lzwCheck()` as 42_lzw.md R161 lists them. -/
structure LzwLegal (s : State) : Prop where
  size : 1 ≤ s.width.toNat ∧ 1 ≤ s.height.toNat
  depth : s.inFmt.bitDepth.toNat ∈ [1, 2, 4, 8]
  input : s.inLen.toNat ≤ s.params.inbufBytes
  fits : strideOf s.width.toNat 1 s.inFmt.bitDepth.toNat * s.height.toNat ≤ s.params.outbufBytes

/-- The legal pairs of color type and bit depth of 43_png_unfilter.md R211, each with its number of bands. -/
def pngTable : List (Nat × Nat × Nat) :=
  [(0, 1, 1), (0, 2, 1), (0, 4, 1), (0, 8, 1), (0, 16, 1), (2, 8, 3), (2, 16, 3), (3, 1, 1), (3, 2, 1), (3, 4, 1),
    (3, 8, 1), (4, 8, 2), (4, 16, 2), (6, 8, 4), (6, 16, 4)]

/-- The six conditions of `pngCheck()` as 43_png_unfilter.md R211 lists them, for a number of bands. -/
structure PngLegal (s : State) (bands : Nat) : Prop where
  size : 1 ≤ s.width.toNat ∧ 1 ≤ s.height.toNat
  pair : (s.inFmt.colorType.toNat, s.inFmt.bitDepth.toNat, bands) ∈ pngTable
  input : s.inLen.toNat ≤ s.params.inbufBytes
  fits : strideOf s.width.toNat (if s.inFmt.colorType.toNat ∈ [4, 6] then bands - 1 else bands)
    (if s.inFmt.bitDepth.toNat = 16 then 8 else s.inFmt.bitDepth.toNat) * s.height.toNat ≤ s.params.outbufBytes
  fitsMask : s.inFmt.colorType.toNat ∈ [4, 6] → s.width.toNat * s.height.toNat ≤ s.params.maskbufBytes
  row : ceilDiv (bands * s.width.toNat * s.inFmt.bitDepth.toNat) 8 ≤ s.params.rowbufBytes

/-- The state after `raise Fault(code)` (60_exceptions.md R262) with the unit that faulted. -/
def faulted (s : State) (u : UnitSel) (code : FaultCode) : State :=
  { s with unit := u, engine := .fault, faultCode := code, endReason := .noReason }

/-- The used region of OUTBUF, as bus addresses (20_memory.md R63). -/
def InUsedOut (s : State) (a : Nat) : Prop := 0x20000000 ≤ a ∧ a < 0x20000000 + s.usedOut

/-- The used region of MASKBUF, as bus addresses, when a mask is present (20_memory.md R64). -/
def InUsedMask (s : State) (a : Nat) : Prop :=
  s.outFmt.mask = true ∧ 0x30000000 ≤ a ∧ a < 0x30000000 + s.usedMask

/-- Two states agree on the fields no register of the spec stands behind: the parameters and the model's own fields but
the counter of free values. -/
def SameOutside (s t : State) : Prop :=
  t.params = s.params ∧ t.epoch = s.epoch ∧ t.inbox = s.inbox ∧ t.outbox = s.outbox ∧ t.hostNext = s.hostNext

/-- The fuelled form of `Lzw.string`. -/
def Lzw.stringFrom (l : Lzw) : Nat → BitVec 12 → List Byte
  | 0, code => [l.sfx.get code.toNat]
  | fuel + 1, code =>
    if l.clearCode.toNat < code.toNat then l.stringFrom fuel (l.pfx.get code.toNat) ++ [l.sfx.get code.toNat]
    else [l.sfx.get code.toNat]

/-- The pixels a code stands for, first pixel first: its prefix's pixels and then its suffix (42_lzw.md R173). The fuel is
the number of entries, more than any chain of a good dictionary has. -/
def Lzw.string (l : Lzw) (code : BitVec 12) : List Byte := l.stringFrom Config.lzwTableEntries code

/-- The pixels on the stack, in the order in which they are popped. -/
def Lzw.stackList (l : Lzw) : List Byte := (l.stack.prefixList l.top.toNat).reverse

/-- A code that a chain of entries may hold: a root, or an entry below `n` (10_state.md R42). -/
def Lzw.entryBelow (l : Lzw) (n : Nat) (code : BitVec 12) : Prop :=
  code.toNat < n ∧ (code.toNat < l.clearCode.toNat ∨ l.clearCode.toNat + 2 ≤ code.toNat)

/-- The LZW unit between two steps of a run whose header is read: the ranges of 10_state.md R41 and the dictionary of R42,
where every entry's prefix is a root or an older entry. -/
structure Lzw.Good (l : Lzw) : Prop where
  dataSize : 2 ≤ l.dataSize.toNat ∧ l.dataSize.toNat ≤ 8
  clearCode : l.clearCode.toNat = 2 ^ l.dataSize.toNat
  endCode : l.endCode.toNat = 2 ^ l.dataSize.toNat + 1
  codeSize : l.dataSize.toNat + 1 ≤ l.codeSize.toNat ∧ l.codeSize.toNat ≤ 12
  available : l.clearCode.toNat + 2 ≤ l.available.toNat ∧ l.available.toNat ≤ 4096
  width : l.available.toNat < 2 ^ l.codeSize.toNat ∨ l.available.toNat = 4096
  oldCode : ∀ o, l.oldCode = some o → l.entryBelow l.available.toNat o
  bits : l.bits.toNat ≤ 19
  datum : l.datum.toNat < 2 ^ l.bits.toNat
  top : l.top.toNat ≤ Config.lzwStackEntries
  roots : ∀ r, r < l.clearCode.toNat → (l.sfx.get r).toNat = r
  entries : ∀ j, l.clearCode.toNat + 2 ≤ j → j < l.available.toNat → l.entryBelow j (l.pfx.get j)

/-- A running LZW decode between two steps. -/
structure LzwRun (s : State) : Prop where
  check : LzwLegal s
  fmt : s.outFmt = ⟨s.inFmt.bitDepth, 1, false⟩
  pos : s.inPos.toNat ≤ s.inLen.toNat
  pix : s.pixCnt.toNat ≤ s.width.toNat * s.height.toNat
  good : s.lzw.dataSize ≠ 0 → s.lzw.Good
  block : s.lzw.dataSize ≠ 0 → s.inPos.toNat + s.lzw.count.toNat ≤ s.inLen.toNat

/-- The pixels of the passes before `pass` (43_png_unfilter.md R215, R232). -/
def placedBefore (interlace : Bool) (w h : Nat) : Nat → Nat
  | 0 => 0
  | 1 => 0
  | pass + 2 => placedBefore interlace w h (pass + 1) + passWidthOf interlace w (pass + 1) * passHeightOf interlace h (pass + 1)

/-- A running PNG decode between two scanlines. -/
structure PngRun (s : State) : Prop where
  check : PngLegal s s.png.bands.toNat
  fmt : s.outFmt = pngOutFmt s.inFmt.colorType.toNat s.inFmt.bitDepth.toNat
  alpha : s.png.alpha = pngAlpha s.inFmt.colorType.toNat
  bpp : s.png.bpp.toNat = max 1 (s.png.bands.toNat * s.inFmt.bitDepth.toNat / 8)
  pass : 1 ≤ s.png.pass.toNat ∧ s.png.pass.toNat ≤ lastPass s.inFmt.interlace
  passWidth : s.png.passWidth.toNat = passWidthOf s.inFmt.interlace s.width.toNat s.png.pass.toNat
  passHeight : s.png.passHeight.toNat = passHeightOf s.inFmt.interlace s.height.toNat s.png.pass.toNat
  nonempty : s.png.passWidth.toNat ≠ 0
  rowBytes : s.png.rowBytes.toNat = ceilDiv (s.png.bands.toNat * s.png.passWidth.toNat * s.inFmt.bitDepth.toNat) 8
  srcY : s.png.srcY.toNat < s.png.passHeight.toNat
  pos : s.inPos.toNat ≤ s.inLen.toNat
  pix : s.pixCnt.toNat =
    placedBefore s.inFmt.interlace s.width.toNat s.height.toNat s.png.pass.toNat + s.png.srcY.toNat * s.png.passWidth.toNat

/-- What 10_state.md R24 says of STATUS in every state, and that only the LZW and PNG units are ever BUSY (R40). -/
structure StatusOK (s : State) : Prop where
  fault : s.faultCode ≠ .noFault ↔ s.engine = .fault
  ended : s.endReason ≠ .noReason ↔ s.engine = .done
  running : s.engine = .busy → s.unit = .lzw ∨ s.unit = .png

/-- The invariant of the machine. -/
structure Inv (s : State) : Prop where
  params : s.params.legal = true
  mem : Memory.wf s.mem
  status : StatusOK s
  lzw : s.engine = .busy → s.unit = .lzw → LzwRun s
  png : s.engine = .busy → s.unit = .png → PngRun s

/-- The forward filter of a row that 43_png_unfilter.md R236 gives for tests; `before` holds the row's bytes so far. -/
def filterForwardFrom (pred : Predictor) (bpp : Nat) (prior : List Byte) : List Byte → List Byte → List Byte
  | _, [] => []
  | before, x :: rest =>
    BitVec.ofInt 8 ((x.toNat : Int) - predictAt pred bpp prior before) ::
      filterForwardFrom pred bpp prior (before ++ [x]) rest

/-- The forward filter of a whole row (43_png_unfilter.md R236). -/
def filterForward (pred : Predictor) (bpp : Nat) (prior row : List Byte) : List Byte :=
  filterForwardFrom pred bpp prior [] row

end Sys2Proof.Machine
end

