-- ==== Sys2Proof/Certificates/Slice0/Obligations.lean ====
section
/-! DEFINITION. The statements for the provers, from the numbered rules of spec/. -/

open Sys2Proof Sys2Proof.Machine

/-! ## Reset and the whole machine -/

/-- 70_reset_and_hazards.md R292: every register of the map reads 0 after reset, field by field. -/
def Obligations.ResetRegistersReadZero : Prop :=
  (∀ k, k < 16 → readReg State.reset (4 * k) = 0) ∧
    State.reset.engine = .idle ∧ State.reset.cmdErr = false ∧ State.reset.termSeen = false ∧
    State.reset.faultCode = .noFault ∧ State.reset.endReason = .noReason ∧ State.reset.irq = false ∧
    State.reset.unit = .noUnit ∧ State.reset.irqEn = false ∧
    State.reset.inFmt = ⟨0, 0, false⟩ ∧ State.reset.outFmt = ⟨0, 0, false⟩ ∧
    State.reset.lzw.dataSize = 0 ∧ State.reset.lzw.codeSize = 0 ∧ State.reset.lzw.available = 0

/-- The invariant holds after reset, whatever the parameters are (00_scope.md R6, 10_state.md R24). -/
def Obligations.ResetMeetsInvariant : Prop := Inv State.reset

/-- Every step keeps the invariant: legal parameters, canonical memory, the STATUS rules of 10_state.md R24, the ranges of
R41, the dictionary of R42 and the pass bookkeeping of R45. That a running LZW unit has its header pending exactly while
L.dataSize is 0 is the model's reading (log 9). -/
def Obligations.StepKeepsInvariant : Prop := ∀ s t : State, Inv s → step s = .next t → Inv t

/-- No model step stops in a state that meets the invariant: no stack overflow (42_lzw.md R177), no code without a previous
one (30_encoding.md R87), no BUSY without a unit (10_state.md R40). The stops are the model's own (log 13). -/
def Obligations.StepNeverStops : Prop := ∀ s : State, Inv s → ∃ t, step s = .next t

/-- 60_exceptions.md R281: every run is finite. With no host event pending, some number of steps brings any run to an end
(the size of a step is the model's choice, log 8). -/
def Obligations.EveryRunEnds : Prop :=
  ∀ s : State, Inv s → s.engine = .busy → s.inbox = [] →
    ∃ (k : Nat) (t : State), Sys2Proof.core.run k s = .next t ∧ (t.engine = .done ∨ t.engine = .fault)

/-- 20_memory.md R61, R63: a step of a running unit writes no byte outside the used regions of OUTBUF and MASKBUF. -/
def Obligations.RunWritesOnlyUsedRegions : Prop :=
  ∀ s t : State, Inv s → s.engine = .busy → s.hostMoves = false → step s = .next t →
    ∀ a, ¬ InUsedOut s a → ¬ InUsedMask s a → t.byteAt a = s.byteAt a

/-- 60_exceptions.md R275: FAULT is left only by the RESET command or by power-on reset. -/
def Obligations.FaultLeftOnlyByReset : Prop :=
  ∀ s t : State, s.engine = .fault → step s = .next t → t.engine ≠ .fault →
    ∃ rest, s.inbox = .bus ⟨true, 32, 0, 1⟩ :: rest ∨ s.inbox = .powerOn :: rest

/-- 40_control.md R112: CMDERR is cleared only by RESET (or by the reset input, which resets every register). -/
def Obligations.CmdErrIsSticky : Prop :=
  ∀ s t : State, s.cmdErr = true → step s = .next t → t.cmdErr = false →
    ∃ rest, s.inbox = .bus ⟨true, 32, 0, 1⟩ :: rest ∨ s.inbox = .powerOn :: rest

/-- The parameters of 00_scope.md R6 are never written (that the model carries them in the state is its choice, log 1). -/
def Obligations.ParametersNeverChange : Prop := ∀ s t : State, step s = .next t → t.params = s.params

/-! ## Decoding -/

/-- Decoding the encoded word of any instruction that is well-formed in its context gives it back. -/
def Obligations.DecodeOfEncode : Prop := ∀ (c : LzwCtx) (i : Instr), i.wellFormed c = true → decode c (encode i) = i

/-- Every encoded word whose code fits its width is the word of the instruction it decodes to, which is well-formed. -/
def Obligations.EncodeOfDecode : Prop :=
  ∀ (c : LzwCtx) (e : Encoding), (∀ code, e = .code code → c.fits code = true) →
    encode (decode c e) = e ∧ (decode c e).wellFormed c = true

/-- 30_encoding.md R81, R88, R90: words written out from the tables. -/
def Obligations.TableWordsDecode : Prop :=
  decodeCmd 0x00000000 = .nop ∧ decodeCmd 0x00000006 = .lzwStart ∧ decodeCmd 0x0000000F = .cmdReservedOp 7 ∧
    decodeCmd 0x00000010 = .cmdReservedRsvdB4 0 ∧ decodeCmd 0x80000001 = .cmdReservedRsvdB31 1 ∧
    decodeLen 0x00 = .sbTerm ∧ decodeLen 0xFF = .sbData80 0x7F ∧
    decodeFilter 0x04 = .filterPaeth ∧ decodeFilter 0x07 = .filterReserved06 1 ∧
    decodeCode ⟨3, 4, 6, none⟩ 4 = .lzwClear 4 ∧ decodeCode ⟨3, 4, 6, some 1⟩ 6 = .lzwKwkwk 6 ∧
    decodeCode ⟨3, 4, 6, some 1⟩ 7 = .lzwBad 7

/-- 30_encoding.md R82, 40_control.md R118: a word with a reserved bit set, or with OP 8 to 15, sets CMDERR and changes
nothing else, in every state. -/
def Obligations.ReservedWordsAreRefused : Prop :=
  ∀ (c : LzwCtx) (w : Word) (s : State), w.extractLsb' 4 28 ≠ 0 ∨ 8 ≤ (w.extractLsb' 0 4).toNat →
    exec (decode c (.cmd w)) s = .next { s with cmdErr := true }

/-- A step runs the decoded instruction, in each of the four contexts an encoded word is read in: a CMD write, a
sub-block length byte, an LZW code and a filter byte. The step adds reading the word before the instruction. What else it
says is the model's choice: the queue of host events and who moves (logs 6, 7), that every CMD write answers ok, a refused
command's too (log 20), the tick after the instruction (logs 7, 16), that one word is one step (log 8), and L.dataSize as the
mark of a header still to be read (log 9). -/
def Obligations.StepRunsDecodedInstruction : Prop :=
  (∀ (s : State) (w : Word) (rest : List HostEvent), s.inbox = .bus ⟨true, 32, 0, w⟩ :: rest →
      s.engine ≠ .busy ∨ s.hostNext = true →
      step s = tickResult (exec (decode s.lzw.ctx (.cmd w)) { s with inbox := rest, outbox := .ok :: s.outbox })) ∧
    (∀ s : State, s.hostMoves = false → s.engine = .busy → s.unit = .lzw → s.lzw.dataSize ≠ 0 →
      s.pixCnt.toNat < s.width.toNat * s.height.toNat → s.lzw.top = 0 → s.lzw.bits.toNat < s.lzw.codeSize.toNat →
      s.lzw.count = 0 → s.inPos.toNat < s.inLen.toNat →
      step s = tickResult (exec (decode s.lzw.ctx (.len (s.byteAt (0x10000000 + s.inPos.toNat))))
        { s with inPos := s.inPos + 1 })) ∧
    (∀ s : State, s.hostMoves = false → s.engine = .busy → s.unit = .lzw → s.lzw.dataSize ≠ 0 →
      s.pixCnt.toNat < s.width.toNat * s.height.toNat → s.lzw.top = 0 → s.lzw.codeSize.toNat ≤ s.lzw.bits.toNat →
      step s = tickResult (exec (decode s.lzw.ctx (.code (BitVec.ofNat 12 (s.lzw.datum.toNat % 2 ^ s.lzw.codeSize.toNat))))
        { s with lzw := { s.lzw with
            datum := s.lzw.datum >>> s.lzw.codeSize.toNat
            bits := s.lzw.bits - s.lzw.codeSize.setWidth 5 } })) ∧
    (∀ s : State, s.hostMoves = false → s.engine = .busy → s.unit = .png → s.inPos.toNat < s.inLen.toNat →
      step s = tickResult (exec (decode s.lzw.ctx (.filter (s.byteAt (0x10000000 + s.inPos.toNat))))
        { s with inPos := s.inPos + 1 }))

/-! ## Control commands -/

/-- 40_control.md R115: NOP is accepted in every state and changes nothing. -/
def Obligations.NopChangesNothing : Prop := ∀ s : State, exec .nop s = .next s

/-- 40_control.md R118: each reserved command completes in every state by setting CMDERR, and changes nothing else. -/
def Obligations.ReservedCommandsSetCmdErr : Prop :=
  ∀ s : State, (∀ low, exec (.cmdReservedOp low) s = .next { s with cmdErr := true }) ∧
    (∀ low, exec (.cmdReservedRsvdB4 low) s = .next { s with cmdErr := true }) ∧
    (∀ low, exec (.cmdReservedRsvdB5 low) s = .next { s with cmdErr := true }) ∧
    (∀ low, exec (.cmdReservedRsvdB6 low) s = .next { s with cmdErr := true }) ∧
    (∀ low, exec (.cmdReservedRsvdB7 low) s = .next { s with cmdErr := true }) ∧
    (∀ low, exec (.cmdReservedRsvdB8 low) s = .next { s with cmdErr := true }) ∧
    (∀ low, exec (.cmdReservedRsvdB9 low) s = .next { s with cmdErr := true }) ∧
    (∀ low, exec (.cmdReservedRsvdB10 low) s = .next { s with cmdErr := true }) ∧
    (∀ low, exec (.cmdReservedRsvdB11 low) s = .next { s with cmdErr := true }) ∧
    (∀ low, exec (.cmdReservedRsvdB12 low) s = .next { s with cmdErr := true }) ∧
    (∀ low, exec (.cmdReservedRsvdB13 low) s = .next { s with cmdErr := true }) ∧
    (∀ low, exec (.cmdReservedRsvdB14 low) s = .next { s with cmdErr := true }) ∧
    (∀ low, exec (.cmdReservedRsvdB15 low) s = .next { s with cmdErr := true }) ∧
    (∀ low, exec (.cmdReservedRsvdB16 low) s = .next { s with cmdErr := true }) ∧
    (∀ low, exec (.cmdReservedRsvdB17 low) s = .next { s with cmdErr := true }) ∧
    (∀ low, exec (.cmdReservedRsvdB18 low) s = .next { s with cmdErr := true }) ∧
    (∀ low, exec (.cmdReservedRsvdB19 low) s = .next { s with cmdErr := true }) ∧
    (∀ low, exec (.cmdReservedRsvdB20 low) s = .next { s with cmdErr := true }) ∧
    (∀ low, exec (.cmdReservedRsvdB21 low) s = .next { s with cmdErr := true }) ∧
    (∀ low, exec (.cmdReservedRsvdB22 low) s = .next { s with cmdErr := true }) ∧
    (∀ low, exec (.cmdReservedRsvdB23 low) s = .next { s with cmdErr := true }) ∧
    (∀ low, exec (.cmdReservedRsvdB24 low) s = .next { s with cmdErr := true }) ∧
    (∀ low, exec (.cmdReservedRsvdB25 low) s = .next { s with cmdErr := true }) ∧
    (∀ low, exec (.cmdReservedRsvdB26 low) s = .next { s with cmdErr := true }) ∧
    (∀ low, exec (.cmdReservedRsvdB27 low) s = .next { s with cmdErr := true }) ∧
    (∀ low, exec (.cmdReservedRsvdB28 low) s = .next { s with cmdErr := true }) ∧
    (∀ low, exec (.cmdReservedRsvdB29 low) s = .next { s with cmdErr := true }) ∧
    (∀ low, exec (.cmdReservedRsvdB30 low) s = .next { s with cmdErr := true }) ∧
    (∀ low, exec (.cmdReservedRsvdB31 low) s = .next { s with cmdErr := true })

/-- 40_control.md R116, 70_reset_and_hazards.md R291: RESET completes in every state with every register at its reset
value; the buffers keep their bytes, but for the used output regions when it is taken while BUSY. That IN_POS, PIXCNT and
LZW_STAT read 0 after a RESET taken while BUSY, where R302 calls them unspecified, is the model's choice (log 30); that
LZW_STAT reads 0 though the unit's values are unspecified is log 4. -/
def Obligations.ResetCommandResets : Prop :=
  ∀ s : State, ∃ t, exec .reset s = .next t ∧ (∀ k, k < 16 → readReg t (4 * k) = 0) ∧ t.irq = false ∧
    t.engine = .idle ∧ t.unit = .noUnit ∧ SameOutside s t ∧
    (s.engine ≠ .busy → t.mem = s.mem) ∧
    ∀ a, ¬ InUsedOut s a → ¬ InUsedMask s a → t.byteAt a = s.byteAt a

/-- 40_control.md R117: ABORT completes in IDLE and DONE by clearing the end reason, and while BUSY by stopping the unit:
then only the used output regions, IN_POS, PIXCNT and what LZW_STAT shows are open. -/
def Obligations.AbortStopsTheUnit : Prop :=
  ∀ s : State,
    (s.engine = .idle ∨ s.engine = .done →
      exec .abort s = .next { s with engine := .idle, endReason := .noReason }) ∧
    (s.engine = .busy →
      ∃ t, exec .abort s = .next t ∧
        t = { s with
          engine := .idle
          mem := t.mem
          inPos := t.inPos
          pixCnt := t.pixCnt
          free := t.free
          lzw := { s.lzw with
            dataSize := t.lzw.dataSize
            codeSize := t.lzw.codeSize
            available := t.lzw.available } } ∧
        ∀ a, ¬ InUsedOut s a → ¬ InUsedMask s a → t.byteAt a = s.byteAt a)

/-- 40_control.md R110, R111: the acceptance table. A refused command sets CMDERR and changes nothing else; an accepted one
completes and does not set CMDERR. -/
def Obligations.AcceptanceTable : Prop :=
  ∀ s : State,
    (s.engine = .fault → ∀ i ∈ [Instr.abort, .pbClear, .pbSet, .pbGet, .lzwStart, .pngStart],
      exec i s = .next { s with cmdErr := true }) ∧
    (s.engine = .busy → ∀ i ∈ [Instr.pbClear, .pbSet, .pbGet, .lzwStart, .pngStart],
      exec i s = .next { s with cmdErr := true }) ∧
    (s.engine = .idle ∨ s.engine = .done → ∀ i ∈ [Instr.abort, .pbClear, .pbSet, .pbGet, .lzwStart, .pngStart],
      ∃ t, exec i s = .next t ∧ t.cmdErr = s.cmdErr) ∧
    (s.engine = .busy → ∃ t, exec .abort s = .next t ∧ t.cmdErr = s.cmdErr) ∧
    (∃ t, exec .nop s = .next t ∧ t.cmdErr = s.cmdErr) ∧ ∃ t, exec .reset s = .next t ∧ t.cmdErr = false

/-! ## Pixel buffer -/

/-- 41_pixel_buffer.md R140: PB_CLEAR zeroes the used region of OUTBUF, and of MASKBUF when a mask is present; every other
byte and every register keep their values. -/
def Obligations.PbClearZeroesTheUsedRegion : Prop :=
  ∀ s : State, s.engine = .idle ∨ s.engine = .done → GeomLegal s →
    ∃ t, exec .pbClear s = .next t ∧ t = { s with mem := t.mem } ∧
      (∀ a, InUsedOut s a → t.byteAt a = 0) ∧
      (∀ a, InUsedMask s a → t.byteAt a = 0) ∧
      ∀ a, ¬ InUsedOut s a → ¬ InUsedMask s a → t.byteAt a = s.byteAt a

/-- 41_pixel_buffer.md R141, R135: PB_SET writes the sample at the address R134 gives, by OR below 8 bits and by
replacement at 8 and 16 bits, and changes no other byte and no register. -/
def Obligations.PbSetWritesTheSample : Prop :=
  ∀ s : State, s.engine = .idle ∨ s.engine = .done → GeomLegal s →
    InBounds s s.pxX.toNat s.pxY.toNat s.pxC.toNat →
    ∃ t, exec .pbSet s = .next t ∧ t = { s with mem := t.mem } ∧
      ∀ (bit b : Nat),
        bit = 8 * s.pxY.toNat * s.stride +
          (s.pxX.toNat * s.outFmt.ncomp.toNat + s.pxC.toNat) * s.outFmt.bpc.toNat →
        b = 0x20000000 + bit / 8 →
        (s.outFmt.bpc.toNat < 8 →
          t.byteAt b = s.byteAt b ||| BitVec.ofNat 8 (s.pxV.toNat <<< (8 - s.outFmt.bpc.toNat - bit % 8)) ∧
          ∀ a, a ≠ b → t.byteAt a = s.byteAt a) ∧
        (s.outFmt.bpc.toNat = 8 →
          (t.byteAt b).toNat = s.pxV.toNat % 256 ∧ ∀ a, a ≠ b → t.byteAt a = s.byteAt a) ∧
        (s.outFmt.bpc.toNat = 16 →
          (t.byteAt b).toNat = s.pxV.toNat % 65536 / 256 ∧ (t.byteAt (b + 1)).toNat = s.pxV.toNat % 256 ∧
          ∀ a, a ≠ b → a ≠ b + 1 → t.byteAt a = s.byteAt a)

/-- 41_pixel_buffer.md R142, R136, R138: PB_GET writes the sample, zero-extended, to PX_V, and changes nothing else. -/
def Obligations.PbGetReadsTheSample : Prop :=
  ∀ s : State, s.engine = .idle ∨ s.engine = .done → GeomLegal s →
    InBounds s s.pxX.toNat s.pxY.toNat s.pxC.toNat →
    ∀ (bit b : Nat),
      bit = 8 * s.pxY.toNat * s.stride +
        (s.pxX.toNat * s.outFmt.ncomp.toNat + s.pxC.toNat) * s.outFmt.bpc.toNat →
      b = 0x20000000 + bit / 8 →
      ∃ v : Word, exec .pbGet s = .next { s with pxV := v } ∧
        (s.outFmt.bpc.toNat < 8 →
          v.toNat = ((s.byteAt b).toNat >>> (8 - s.outFmt.bpc.toNat - bit % 8)) % 2 ^ s.outFmt.bpc.toNat) ∧
        (s.outFmt.bpc.toNat = 8 → v.toNat = (s.byteAt b).toNat) ∧
        (s.outFmt.bpc.toNat = 16 → v.toNat = (s.byteAt b).toNat * 256 + (s.byteAt (b + 1)).toNat)

/-- 41_pixel_buffer.md R131, R132: a pixel-buffer command with an illegal geometry faults with UnsupportedConfiguration,
UNIT becoming PB, and changes no byte and no other register. -/
def Obligations.IllegalGeometryFaults : Prop :=
  ∀ s : State, s.engine = .idle ∨ s.engine = .done → ¬ GeomLegal s →
    ∀ i ∈ [Instr.pbClear, .pbSet, .pbGet], exec i s = .next (faulted s .pb .unsupportedConfiguration)

/-- 41_pixel_buffer.md R137: PB_SET and PB_GET out of bounds fault with BoundsCheck, after the geometry check (R265). -/
def Obligations.OutOfBoundsFaults : Prop :=
  ∀ s : State, s.engine = .idle ∨ s.engine = .done → GeomLegal s →
    ¬ InBounds s s.pxX.toNat s.pxY.toNat s.pxC.toNat →
    ∀ i ∈ [Instr.pbSet, .pbGet], exec i s = .next (faulted s .pb .boundsCheck)

/-- 41_pixel_buffer.md R139: in a legal geometry, a value below `2^BPC` written to a sample whose bits are zero is read back,
and no other sample changes; below 8 bits a second write leaves the OR of the values. -/
def Obligations.SetThenGetRoundTrips : Prop :=
  ∀ (s : State) (x y c v : Nat), GeomLegal s → InBounds s x y c → getPixel s x y c = 0 →
    v < 2 ^ s.outFmt.bpc.toNat →
    getPixel (setPixel s x y c v) x y c = v ∧
      (∀ x' y' c', InBounds s x' y' c' → (x', y', c') ≠ (x, y, c) →
        getPixel (setPixel s x y c v) x' y' c' = getPixel s x' y' c') ∧
      ∀ w, s.outFmt.bpc.toNat < 8 → w < 2 ^ s.outFmt.bpc.toNat →
        getPixel (setPixel (setPixel s x y c v) x y c w) x y c = v ||| w

/-- 70_reset_and_hazards.md R300: below 8 bits each write leaves the OR of the old and new values, whatever the sample held. -/
def Obligations.SubByteWritesOr : Prop :=
  ∀ (s : State) (x y c v w : Nat), GeomLegal s → InBounds s x y c → s.outFmt.bpc.toNat < 8 →
    v < 2 ^ s.outFmt.bpc.toNat → w < 2 ^ s.outFmt.bpc.toNat →
    getPixel (setPixel (setPixel s x y c v) x y c w) x y c = getPixel s x y c ||| v ||| w

/-! ## LZW -/

/-- 42_lzw.md R163, 40_control.md R113: an accepted LZW_START with a legal configuration sets the output format, zeroes the
used region and the counters, and starts the unit. -/
def Obligations.LzwStartInitialises : Prop :=
  ∀ s : State, s.engine = .idle ∨ s.engine = .done → LzwLegal s →
    ∃ t, exec .lzwStart s = .next t ∧
      t = { s with
        engine := .busy
        unit := .lzw
        faultCode := .noFault
        endReason := .noReason
        termSeen := false
        outFmt := ⟨s.inFmt.bitDepth, 1, false⟩
        inPos := 0
        pixCnt := 0
        lzw := { s.lzw with dataSize := 0, codeSize := 0, available := 0 }
        mem := t.mem } ∧
      (∀ a, InUsedOut t a → t.byteAt a = 0) ∧ ∀ a, ¬ InUsedOut t a → t.byteAt a = s.byteAt a

/-- 42_lzw.md R161: LZW_START with an illegal configuration faults, with no other effect than R113's. -/
def Obligations.LzwStartChecksItsConfiguration : Prop :=
  ∀ s : State, s.engine = .idle ∨ s.engine = .done → ¬ LzwLegal s →
    exec .lzwStart s = .next (faulted s .lzw .unsupportedConfiguration)

/-- 42_lzw.md R164: the step after LZW_START, while L.dataSize is 0 (log 9), reads the data size. -/
def Obligations.LzwHeaderReadsTheDataSize : Prop :=
  ∀ s : State, s.engine = .busy → s.unit = .lzw → s.hostMoves = false → s.lzw.dataSize = 0 →
    (s.inLen.toNat ≤ s.inPos.toNat → step s = .next (tick (faulted s .lzw .prematureEndOfStream))) ∧
    ∀ ds : Nat, s.inPos.toNat < s.inLen.toNat → ds = (s.byteAt (0x10000000 + s.inPos.toNat)).toNat →
      (ds < 2 ∨ 8 < ds → step s = .next (tick (faulted { s with inPos := s.inPos + 1 } .lzw .corruptBlock))) ∧
      (2 ≤ ds → ds ≤ 8 → ∃ l, step s = .next (tick { s with inPos := s.inPos + 1, lzw := l, free := s.free + 1 }) ∧
        l.Good ∧ l.dataSize.toNat = ds ∧ l.codeSize.toNat = ds + 1 ∧ l.available.toNat = 2 ^ ds + 2 ∧
        l.oldCode = none ∧ l.first = 0 ∧ l.datum = 0 ∧ l.bits = 0 ∧ l.count = 0 ∧ l.top = 0 ∧
        ∀ r, r < 2 ^ ds → l.pfx.get r = 0)

/-- 42_lzw.md R170: CLEAR resets the width, the free slot and the previous code, and nothing else. That the stale entries
keep what they held is the model's choice (log 25; 93 U8 leaves them open). -/
def Obligations.ClearResetsTheDictionary : Prop :=
  ∀ (s : State) (code : BitVec 12), s.lzw.Good →
    ∃ l, exec (.lzwClear code) s = .next { s with lzw := l } ∧
      l = { s.lzw with codeSize := l.codeSize, available := l.available, oldCode := none } ∧
      l.codeSize.toNat = s.lzw.dataSize.toNat + 1 ∧ l.available.toNat = s.lzw.clearCode.toNat + 2

/-- 42_lzw.md R171: END ends the decode normally. -/
def Obligations.EndCodeEndsTheDecode : Prop :=
  ∀ (s : State) (code : BitVec 12), exec (.lzwEnd code) s = .next { s with engine := .done, endReason := .endCode }

/-- 42_lzw.md R175: an unresolvable code faults or ends the decode, by the policy. -/
def Obligations.BadCodeFollowsThePolicy : Prop :=
  ∀ (s : State) (code : BitVec 12),
    (s.params.badCode = .fault → exec (.lzwBad code) s =
      .next { s with engine := .fault, faultCode := .corruptBlock, endReason := .noReason }) ∧
    (s.params.badCode = .softStop → exec (.lzwBad code) s =
      .next { s with engine := .done, endReason := .badCodeSoft })

/-- 42_lzw.md R172: FIRST pushes the root's pixel on the empty stack, and sets the previous code and the first pixel; no
entry is added and the width stays. -/
def Obligations.FirstCodePushesItsPixel : Prop :=
  ∀ (s : State) (code : BitVec 12), s.lzw.Good → s.lzw.top = 0 → code.toNat < s.lzw.clearCode.toNat →
    ∃ l, exec (.lzwFirst code) s = .next { s with lzw := l } ∧
      l = { s.lzw with stack := l.stack, top := 1, oldCode := some code, first := l.first } ∧
      l.first.toNat = code.toNat ∧ l.stackList = [l.first]

/-- 42_lzw.md R173, R168: a LIT, DICT or KWKWK code, with room in the table, leaves its pixels on the stack in the order they
are popped (for KWKWK the previous code's pixels and the last first pixel), adds the entry (previous code, first pixel),
grows the width when the entries fill it, becomes the previous code, and changes nothing else. -/
def Obligations.DataCodesPushTheirPixels : Prop :=
  ∀ (s : State) (old code : BitVec 12), s.lzw.Good → s.lzw.top = 0 → s.lzw.oldCode = some old →
    s.lzw.available.toNat < 4096 →
    ∀ i, (i = .lzwLit code ∧ code.toNat < s.lzw.clearCode.toNat) ∨
        (i = .lzwDict code ∧ s.lzw.clearCode.toNat + 2 ≤ code.toNat ∧ code.toNat < s.lzw.available.toNat) ∨
        (i = .lzwKwkwk code ∧ code.toNat = s.lzw.available.toNat) →
    ∃ l, exec i s = .next { s with lzw := l } ∧
      l = { s.lzw with
        codeSize := l.codeSize
        available := s.lzw.available + 1
        oldCode := some code
        first := l.first
        top := l.top
        pfx := l.pfx
        sfx := l.sfx
        stack := l.stack } ∧
      l.stackList =
        (if code.toNat = s.lzw.available.toNat then s.lzw.string old ++ [s.lzw.first] else s.lzw.string code) ∧
      l.stackList.head? = some l.first ∧
      l.pfx.get s.lzw.available.toNat = old ∧ l.sfx.get s.lzw.available.toNat = l.first ∧
      (∀ j, j ≠ s.lzw.available.toNat → l.pfx.get j = s.lzw.pfx.get j ∧ l.sfx.get j = s.lzw.sfx.get j) ∧
      l.codeSize.toNat =
        if l.available.toNat = 2 ^ s.lzw.codeSize.toNat ∧ l.available.toNat < 4096 then s.lzw.codeSize.toNat + 1
        else s.lzw.codeSize.toNat

/-- 42_lzw.md R174: a LIT or DICT code that arrives with 4096 entries in use ends the decode before any of its pixels is
placed and with no entry added (a KWKWK code would be 4096, which no 12-bit code is). -/
def Obligations.FullTableEndsTheDecode : Prop :=
  ∀ (s : State) (old code : BitVec 12), s.lzw.Good → s.lzw.top = 0 → s.lzw.oldCode = some old →
    s.lzw.available.toNat = 4096 →
    ∀ i, (i = .lzwLit code ∧ code.toNat < s.lzw.clearCode.toNat) ∨
        (i = .lzwDict code ∧ s.lzw.clearCode.toNat + 2 ≤ code.toNat) →
    ∃ l, exec i s = .next { s with lzw := l, engine := .done, endReason := .tableFull } ∧
      l = { s.lzw with first := l.first, top := l.top, stack := l.stack }

/-- 42_lzw.md R166: the zero-length block ends the decode normally. -/
def Obligations.TerminatorEndsTheDecode : Prop :=
  ∀ s : State, exec .sbTerm s = .next { s with termSeen := true, engine := .done, endReason := .terminator }

/-- 42_lzw.md R162, R165: a length byte opens a block of that many data bytes when the whole block is present, and else
faults just after the length byte (one case for each row of the table, `len` being the byte the row's word is); and the step
that needs a length byte or a data byte faults when the input is used up (one byte a step is the model's choice, logs 8, 9). -/
def Obligations.LengthBytesOpenABlock : Prop :=
  (∀ (s : State) (i : Instr) (len : Byte),
    (i, len) ∈ ([(.sbData01, 1)] : List (Instr × Byte)) ∨ (∃ l, i = .sbData02 l ∧ len = 0x02 + l.setWidth 8) ∨
      (∃ l, i = .sbData04 l ∧ len = 0x04 + l.setWidth 8) ∨ (∃ l, i = .sbData08 l ∧ len = 0x08 + l.setWidth 8) ∨
      (∃ l, i = .sbData10 l ∧ len = 0x10 + l.setWidth 8) ∨ (∃ l, i = .sbData20 l ∧ len = 0x20 + l.setWidth 8) ∨
      (∃ l, i = .sbData40 l ∧ len = 0x40 + l.setWidth 8) ∨ (∃ l, i = .sbData80 l ∧ len = 0x80 + l.setWidth 8) →
    (s.inPos.toNat + len.toNat ≤ s.inLen.toNat →
      exec i s = .next { s with lzw := { s.lzw with count := len } }) ∧
    (s.inLen.toNat < s.inPos.toNat + len.toNat →
      exec i s = .next { s with engine := .fault, faultCode := .prematureEndOfStream, endReason := .noReason })) ∧
  ∀ s : State, s.hostMoves = false → s.engine = .busy → s.unit = .lzw → s.lzw.dataSize ≠ 0 →
    s.pixCnt.toNat < s.width.toNat * s.height.toNat → s.lzw.top = 0 → s.lzw.bits.toNat < s.lzw.codeSize.toNat →
    s.inLen.toNat ≤ s.inPos.toNat → step s = .next (tick (faulted s .lzw .prematureEndOfStream))

/-- 30_encoding.md R84, R85: loading a byte appends its bits, the least significant first, to the bits held; a code is the
first `codeSize` of them, and taking it leaves the rest. 42_lzw.md R165, R167: with the stack empty, too few bits for a code
and a block open, the step loads the byte at IN_POS, which it consumes from the input and from the block, and changes nothing
else (that this is one step of its own is the model's choice, logs 8, 9). -/
def Obligations.AccumulatorHoldsTheStream : Prop :=
  (∀ (l : Lzw) (b : Byte), l.Good →
    (l.bits.toNat < l.codeSize.toNat → (l.loadByte b).bits.toNat = l.bits.toNat + 8 ∧
      ∀ j, (l.loadByte b).datum.getLsbD j = if j < l.bits.toNat then l.datum.getLsbD j else b.getLsbD (j - l.bits.toNat)) ∧
    (l.codeSize.toNat ≤ l.bits.toNat →
      (∀ j, l.nextCode.getLsbD j = (decide (j < l.codeSize.toNat) && l.datum.getLsbD j)) ∧
      l.dropCode.bits.toNat = l.bits.toNat - l.codeSize.toNat ∧
      ∀ j, l.dropCode.datum.getLsbD j = l.datum.getLsbD (j + l.codeSize.toNat))) ∧
  ∀ s : State, s.lzw.Good → s.hostMoves = false → s.engine = .busy → s.unit = .lzw →
    s.pixCnt.toNat < s.width.toNat * s.height.toNat → s.lzw.top = 0 → s.lzw.bits.toNat < s.lzw.codeSize.toNat →
    s.lzw.count ≠ 0 → s.inPos.toNat < s.inLen.toNat →
    ∃ l, step s = .next (tick { s with inPos := s.inPos + 1, lzw := l }) ∧
      l = { s.lzw with datum := l.datum, bits := l.bits, count := l.count } ∧
      l.count.toNat + 1 = s.lzw.count.toNat ∧ l.bits.toNat = s.lzw.bits.toNat + 8 ∧
      ∀ j, l.datum.getLsbD j = if j < s.lzw.bits.toNat then s.lzw.datum.getLsbD j
        else (s.byteAt (0x10000000 + s.inPos.toNat)).getLsbD (j - s.lzw.bits.toNat)

/-- 42_lzw.md R178, R179: with a pixel on the stack, the step places it at the column and row that PIXCNT gives, counts it,
and writes no byte but the pixel's. -/
def Obligations.PopPlacesOnePixel : Prop :=
  ∀ s : State, Inv s → s.engine = .busy → s.unit = .lzw → s.hostMoves = false → s.lzw.dataSize ≠ 0 → s.lzw.top ≠ 0 →
    s.pixCnt.toNat < s.width.toNat * s.height.toNat →
    ∃ t, step s = .next (tick t) ∧
      t = { s with mem := t.mem, pixCnt := t.pixCnt, lzw := { s.lzw with top := t.lzw.top } } ∧
      t.pixCnt.toNat = s.pixCnt.toNat + 1 ∧ t.lzw.top.toNat + 1 = s.lzw.top.toNat ∧
      ∀ x y b : Nat, x = s.pixCnt.toNat % s.width.toNat →
        y = (if s.inFmt.interlace then (gifOrder s.height.toNat).getD (s.pixCnt.toNat / s.width.toNat) 0
          else s.pixCnt.toNat / s.width.toNat) →
        b = 0x20000000 + s.byteIdx x y 0 →
        t.byteAt b = (if s.outFmt.bpc.toNat = 8 then s.lzw.stack.get t.lzw.top.toNat
          else s.byteAt b ||| BitVec.ofNat 8 ((s.lzw.stack.get t.lzw.top.toNat).toNat <<< s.shiftOf x y 0)) ∧
        ∀ a, a ≠ b → t.byteAt a = s.byteAt a

/-- 42_lzw.md R179: the interlaced row order is a permutation of the rows. -/
def Obligations.GifOrderIsAPermutation : Prop := ∀ h : Nat, (gifOrder h).Perm (List.range h)

/-- 42_lzw.md R176, 60_exceptions.md R271: with W * H pixels placed the step ends the decode with PIXELS_DONE, reading
nothing (a header still pending is dataSize 0, log 9); and a decode that ends with PIXELS_DONE has placed exactly W * H. -/
def Obligations.PixelCountEndsTheDecode : Prop :=
  (∀ s : State, s.engine = .busy → s.unit = .lzw → s.hostMoves = false → s.lzw.dataSize ≠ 0 →
      s.pixCnt.toNat = s.width.toNat * s.height.toNat →
      step s = .next (tick { s with engine := .done, endReason := .pixelsDone })) ∧
    ∀ s t : State, Inv s → s.engine = .busy → s.unit = .lzw → s.hostMoves = false → step s = .next t →
      t.engine = .done → (t.endReason = .pixelsDone ↔ t.pixCnt.toNat = t.width.toNat * t.height.toNat)

/-! ## PNG -/

/-- 43_png_unfilter.md R213, R214: an accepted PNG_START with a legal configuration writes the output format, zeroes the used
regions and the counters, and starts the unit at the first row of pass 1 with a prior row of zeros (R224; that this is part
of the start is the model's choice, log 23). -/
def Obligations.PngStartInitialises : Prop :=
  ∀ (s : State) (bands : Nat), s.engine = .idle ∨ s.engine = .done → PngLegal s bands → s.params.legal = true →
    ∃ t, exec .pngStart s = .next t ∧
      t = { s with
        engine := .busy
        unit := .png
        faultCode := .noFault
        endReason := .noReason
        outFmt := t.outFmt
        inPos := 0
        pixCnt := 0
        png := t.png
        mem := t.mem } ∧
      t.outFmt.bpc.toNat = (if s.inFmt.bitDepth.toNat = 16 then 8 else s.inFmt.bitDepth.toNat) ∧
      t.outFmt.ncomp.toNat = (if s.inFmt.colorType.toNat ∈ [4, 6] then bands - 1 else bands) ∧
      t.outFmt.mask = decide (s.inFmt.colorType.toNat ∈ [4, 6]) ∧
      t.png.bands.toNat = bands ∧ t.png.alpha = t.outFmt.mask ∧
      t.png.bpp.toNat = max 1 (bands * s.inFmt.bitDepth.toNat / 8) ∧ t.png.pass.toNat = 1 ∧ t.png.srcY.toNat = 0 ∧
      (∀ i, i < t.png.rowBytes.toNat → t.png.prior.get i = 0) ∧
      (∀ a, InUsedOut t a → t.byteAt a = 0) ∧ (∀ a, InUsedMask t a → t.byteAt a = 0) ∧
      ∀ a, ¬ InUsedOut t a → ¬ InUsedMask t a → t.byteAt a = s.byteAt a

/-- 43_png_unfilter.md R211: PNG_START with an illegal configuration faults, with no other effect than R113's. -/
def Obligations.PngStartChecksItsConfiguration : Prop :=
  ∀ s : State, s.engine = .idle ∨ s.engine = .done → (∀ bands, ¬ PngLegal s bands) →
    exec .pngStart s = .next (faulted s .png .unsupportedConfiguration)

/-- 43_png_unfilter.md R212, R216 to R220, R225: with the row present, each filter completes: it consumes the row, counts its
pixels, and reconstructs byte i as the raw byte plus the filter's prediction from the left, above and upper-left bytes,
mod 256; the registers not named keep their values, and so does every byte outside the used output regions, the input
among them. -/
def Obligations.FiltersReconstructTheRow : Prop :=
  ∀ (s : State) (i : Instr) (pred : Nat → Nat → Nat → Nat), PngRun s → s.params.legal = true →
    s.inPos.toNat + s.png.rowBytes.toNat ≤ s.inLen.toNat →
    (i = .filterNone ∧ pred = fun _ _ _ => 0) ∨ (i = .filterSub ∧ pred = fun a _ _ => a) ∨
      (i = .filterUp ∧ pred = fun _ b _ => b) ∨ (i = .filterAvg ∧ pred = fun a b _ => (a + b) / 2) ∨
      (i = .filterPaeth ∧ pred = paeth) →
    ∃ t, exec i s = .next t ∧
      t = { s with
        engine := t.engine
        endReason := t.endReason
        inPos := t.inPos
        pixCnt := t.pixCnt
        png := t.png
        mem := t.mem } ∧
      t.inPos.toNat = s.inPos.toNat + s.png.rowBytes.toNat ∧
      t.pixCnt.toNat = s.pixCnt.toNat + s.png.passWidth.toNat ∧
      (∀ a, ¬ InUsedOut s a → ¬ InUsedMask s a → t.byteAt a = s.byteAt a) ∧
      ∀ k, k < s.png.rowBytes.toNat →
        t.png.curr.get k = BitVec.ofNat 8 ((s.byteAt (0x10000000 + s.inPos.toNat + k)).toNat +
          pred (if s.png.bpp.toNat ≤ k then (t.png.curr.get (k - s.png.bpp.toNat)).toNat else 0)
            (s.png.prior.get k).toNat
            (if s.png.bpp.toNat ≤ k then (s.png.prior.get (k - s.png.bpp.toNat)).toNat else 0))

/-- 43_png_unfilter.md R223, R224, R226, R227, R233: after a row, the next row of the pass has this one as its prior row;
after the last row of a pass the first later pass that is not empty begins at row 0 with the size and the row length of that
pass and a prior row of zeros; when every later pass is empty the decode ends with ROWS_DONE. That this advance is part of
the row's own step is the model's choice (log 23). -/
def Obligations.RowsFollowOneAnother : Prop :=
  ∀ (s t : State) (i : Instr), PngRun s → s.params.legal = true → s.engine = .busy →
    i ∈ [Instr.filterNone, .filterSub, .filterUp, .filterAvg, .filterPaeth] →
    s.inPos.toNat + s.png.rowBytes.toNat ≤ s.inLen.toNat → exec i s = .next t →
    (s.png.srcY.toNat + 1 < s.png.passHeight.toNat →
      t.engine = .busy ∧ t.png = { s.png with srcY := t.png.srcY, curr := t.png.curr, prior := t.png.prior } ∧
        t.png.srcY.toNat = s.png.srcY.toNat + 1 ∧
        ∀ k, k < s.png.rowBytes.toNat → t.png.prior.get k = t.png.curr.get k) ∧
    (s.png.srcY.toNat + 1 = s.png.passHeight.toNat → t.engine = .busy →
      t.png = { s.png with
        pass := t.png.pass
        passWidth := t.png.passWidth
        passHeight := t.png.passHeight
        rowBytes := t.png.rowBytes
        srcY := 0
        curr := t.png.curr
        prior := t.png.prior } ∧
      s.png.pass.toNat < t.png.pass.toNat ∧ t.png.pass.toNat ≤ lastPass s.inFmt.interlace ∧
      t.png.passWidth.toNat = passWidthOf s.inFmt.interlace s.width.toNat t.png.pass.toNat ∧ t.png.passWidth ≠ 0 ∧
      t.png.passHeight.toNat = passHeightOf s.inFmt.interlace s.height.toNat t.png.pass.toNat ∧ t.png.passHeight ≠ 0 ∧
      t.png.rowBytes.toNat = ceilDiv (s.png.bands.toNat * t.png.passWidth.toNat * s.inFmt.bitDepth.toNat) 8 ∧
      (∀ k, k < t.png.rowBytes.toNat → t.png.prior.get k = 0) ∧
      ∀ p, s.png.pass.toNat < p → p < t.png.pass.toNat →
        passWidthOf s.inFmt.interlace s.width.toNat p = 0 ∨ passHeightOf s.inFmt.interlace s.height.toNat p = 0) ∧
    (s.png.srcY.toNat + 1 = s.png.passHeight.toNat → t.engine ≠ .busy →
      t.engine = .done ∧ t.endReason = .rowsDone ∧
        ∀ p, s.png.pass.toNat < p → p ≤ lastPass s.inFmt.interlace →
          passWidthOf s.inFmt.interlace s.width.toNat p = 0 ∨ passHeightOf s.inFmt.interlace s.height.toNat p = 0)

/-- 43_png_unfilter.md R228 to R231: a row places each color sample at its output coordinates (over zero bits, the sample
itself; the high byte for 16-bit samples) and each alpha sample in MASKBUF; every byte that holds none of the row's samples,
and every other sample of the image, keeps its value. -/
def Obligations.RowsPlaceTheirSamples : Prop :=
  ∀ (s t : State) (i : Instr), PngRun s → s.params.legal = true →
    i ∈ [Instr.filterNone, .filterSub, .filterUp, .filterAvg, .filterPaeth] →
    s.inPos.toNat + s.png.rowBytes.toNat ≤ s.inLen.toNat → exec i s = .next t →
    ∀ (x : Nat → Nat) (y : Nat),
      (∀ sx, x sx = (passGeom s.inFmt.interlace s.png.pass.toNat).xOff +
        (passGeom s.inFmt.interlace s.png.pass.toNat).xStep * sx) →
      y = (passGeom s.inFmt.interlace s.png.pass.toNat).yOff +
        (passGeom s.inFmt.interlace s.png.pass.toNat).yStep * s.png.srcY.toNat →
      (∀ sx k v : Nat, sx < s.png.passWidth.toNat → k < s.png.bands.toNat →
        v = (if s.inFmt.bitDepth.toNat = 16 then
            (t.png.curr.get (2 * (sx * s.png.bands.toNat + k))).toNat
          else if s.inFmt.bitDepth.toNat = 8 then (t.png.curr.get (sx * s.png.bands.toNat + k)).toNat
          else
            ((t.png.curr.get ((sx * s.png.bands.toNat + k) * s.inFmt.bitDepth.toNat / 8)).toNat >>>
              (8 - s.inFmt.bitDepth.toNat - (sx * s.png.bands.toNat + k) * s.inFmt.bitDepth.toNat % 8)) %
                2 ^ s.inFmt.bitDepth.toNat) →
        (s.png.alpha = true ∧ k + 1 = s.png.bands.toNat →
          (t.byteAt (0x30000000 + (y * s.width.toNat + x sx))).toNat = v) ∧
        (¬ (s.png.alpha = true ∧ k + 1 = s.png.bands.toNat) →
          (8 ≤ s.inFmt.bitDepth.toNat → getPixel t (x sx) y k = v) ∧
          (s.inFmt.bitDepth.toNat < 8 → getPixel t (x sx) y k = getPixel s (x sx) y k ||| v))) ∧
      (∀ a, (∀ sx k, sx < s.png.passWidth.toNat → k < s.outFmt.ncomp.toNat → a ≠ 0x20000000 + s.byteIdx (x sx) y k) →
        (s.png.alpha = true → ∀ sx, sx < s.png.passWidth.toNat → a ≠ 0x30000000 + (y * s.width.toNat + x sx)) →
        t.byteAt a = s.byteAt a) ∧
      ∀ x' y' k', InBounds s x' y' k' → (y' ≠ y ∨ ∀ sx, sx < s.png.passWidth.toNat → x' ≠ x sx) →
        getPixel t x' y' k' = getPixel s x' y' k'

/-- 43_png_unfilter.md R232, R234: a PNG decode that ends with ROWS_DONE has placed exactly W * H pixels. -/
def Obligations.RowsDonePlacesEveryPixel : Prop :=
  ∀ s t : State, Inv s → s.engine = .busy → s.unit = .png → step s = .next t → t.engine = .done → t.unit = .png →
    t.endReason = .rowsDone ∧ t.pixCnt.toNat = s.width.toNat * s.height.toNat

/-- 43_png_unfilter.md R234: the seven passes cover every pixel of every image exactly once. -/
def Obligations.Adam7CoversEveryPixelOnce : Prop :=
  ∀ w h x y : Nat, x < w → y < h →
    ∃ p sx sy, (1 ≤ p ∧ p ≤ 7 ∧ sx < passWidthOf true w p ∧ sy < passHeightOf true h p ∧
        x = (passGeom true p).xOff + (passGeom true p).xStep * sx ∧
        y = (passGeom true p).yOff + (passGeom true p).yStep * sy) ∧
      ∀ p' sx' sy', 1 ≤ p' → p' ≤ 7 → sx' < passWidthOf true w p' → sy' < passHeightOf true h p' →
        x = (passGeom true p').xOff + (passGeom true p').xStep * sx' →
        y = (passGeom true p').yOff + (passGeom true p').yStep * sy' → p' = p ∧ sx' = sx ∧ sy' = sy

/-- 43_png_unfilter.md R221: Paeth picks the neighbour closest to `a + b - c`, a before b before c on ties. -/
def Obligations.PaethPicksTheClosest : Prop :=
  ∀ a b c : Nat, ∃ p : Int, p = a + b - c ∧
    ((paeth a b c = a ∧ (p - a).natAbs ≤ (p - b).natAbs ∧ (p - a).natAbs ≤ (p - c).natAbs) ∨
      (paeth a b c = b ∧ ¬ ((p - a).natAbs ≤ (p - b).natAbs ∧ (p - a).natAbs ≤ (p - c).natAbs) ∧
        (p - b).natAbs ≤ (p - c).natAbs) ∨
      (paeth a b c = c ∧ ¬ ((p - a).natAbs ≤ (p - b).natAbs ∧ (p - a).natAbs ≤ (p - c).natAbs) ∧
        ¬ (p - b).natAbs ≤ (p - c).natAbs))

/-- 43_png_unfilter.md R236: unfiltering undoes the forward filter, for every filter, row, prior row and bpp. -/
def Obligations.UnfilterInvertsTheFilter : Prop :=
  ∀ (pred : Nat → Nat → Nat → Nat) (bpp : Nat) (prior row : List Byte),
    unfilterRow pred bpp prior (filterForward pred bpp prior row) = row

/-- 43_png_unfilter.md R212, 42_lzw.md R162: a short row faults just after its filter byte, before any of its pixels is
placed; and the step that needs a filter byte faults when the input is used up. -/
def Obligations.ShortRowFaults : Prop :=
  (∀ (s : State) (i : Instr), i ∈ [Instr.filterNone, .filterSub, .filterUp, .filterAvg, .filterPaeth] →
    s.inLen.toNat < s.inPos.toNat + s.png.rowBytes.toNat →
    exec i s = .next { s with engine := .fault, faultCode := .prematureEndOfStream, endReason := .noReason }) ∧
  ∀ s : State, s.hostMoves = false → s.engine = .busy → s.unit = .png → s.inLen.toNat ≤ s.inPos.toNat →
    step s = .next (tick (faulted s .png .prematureEndOfStream))

/-- 43_png_unfilter.md R222: each reserved filter type completes by raising CorruptChunk, before the row is read. -/
def Obligations.ReservedFiltersFault : Prop :=
  ∀ (s : State) (i : Instr),
    i = .filterReserved05 ∨ (∃ l, i = .filterReserved06 l) ∨ (∃ l, i = .filterReserved08 l) ∨
      (∃ l, i = .filterReserved10 l) ∨ (∃ l, i = .filterReserved20 l) ∨ (∃ l, i = .filterReserved40 l) ∨
      (∃ l, i = .filterReserved80 l) →
    exec i s = .next { s with engine := .fault, faultCode := .corruptChunk, endReason := .noReason }

/-! ## Host accesses -/

/-- 20_memory.md R65 (host accesses stand in a queue, log 6): an access that is not an aligned 32-bit one at offsets 0x00 to 0x3C, nor an 8-bit one within a
window's size, answers a bus error and changes nothing. -/
def Obligations.RefusedAccessIsABusError : Prop :=
  ∀ (s : State) (op : BusOp) (rest : List HostEvent), s.params.legal = true → s.inbox = .bus op :: rest →
    s.hostMoves = true →
    ¬ (op.bits = 32 ∧ op.addr.toNat % 4 = 0 ∧ op.addr.toNat ≤ 0x3C) →
    ¬ (op.bits = 8 ∧
      ((0x10000000 ≤ op.addr.toNat ∧ op.addr.toNat < 0x10000000 + s.params.inbufBytes) ∨
        (0x20000000 ≤ op.addr.toNat ∧ op.addr.toNat < 0x20000000 + s.params.outbufBytes) ∨
        (0x30000000 ≤ op.addr.toNat ∧ op.addr.toNat < 0x30000000 + s.params.maskbufBytes))) →
    step s = .next (tick { s with inbox := rest, outbox := .error :: s.outbox })

/-- 70_reset_and_hazards.md R290, R292 (the reset input is a host event, log 17): every register reads 0 after it,
and no unit runs; the parameters, the pending events and the answers given stay. -/
def Obligations.PowerOnResetsEveryRegister : Prop :=
  ∀ (s : State) (rest : List HostEvent), s.inbox = .powerOn :: rest → s.hostMoves = true →
    ∃ t : State, step s = .next (tick t) ∧ (∀ k, k < 16 → readReg t (4 * k) = 0) ∧ t.irq = false ∧ t.engine = .idle ∧
      t.unit = .noUnit ∧ t.params = s.params ∧ t.inbox = rest ∧ t.outbox = s.outbox

/-- 20_memory.md R66, 10_state.md R22, R25 to R31: outside BUSY an accepted write takes effect. A read-write register reads
back what was written, at its stored bits; no other register changes but those computed from it (STRIDE from WIDTH and
OUT_FMT, STATUS.IRQ from IRQ_EN). A window byte holds what was written and no other byte changes. A write of a read-only
register is ignored. The queue, the answers, and that a write to a read-only register sets no CMDERR, are the model's
choices (logs 6, 20, 19). -/
def Obligations.WritesTakeEffect : Prop :=
  ∀ (s : State) (bits : Nat) (addr data : Word) (rest : List HostEvent), s.engine ≠ .busy →
    s.inbox = .bus ⟨true, bits, addr, data⟩ :: rest → s.params.legal = true →
    (∀ mask : Word, bits = 32 →
      (addr.toNat, mask) ∈ ([(0x08, 1), (0x0C, 0xFFFFFFFF), (0x10, 0xFFFFFFFF), (0x14, 0x0001071F), (0x18, 0x0001071F),
        (0x20, 0xFFFFFFFF), (0x2C, 0xFFFFFFFF), (0x30, 0xFFFFFFFF), (0x34, 0xFFFFFFFF), (0x38, 0xFFFFFFFF)] :
        List (Nat × Word)) →
      ∃ t : State, step s = .next (tick { t with inbox := rest, outbox := .ok :: s.outbox }) ∧
        readReg t addr.toNat = data &&& mask ∧
        (∀ k, k < 16 → 4 * k ≠ addr.toNat → (4 * k = 0x1C → addr.toNat ≠ 0x0C ∧ addr.toNat ≠ 0x18) →
          (4 * k = 0x04 → addr.toNat ≠ 0x08) → readReg t (4 * k) = readReg s (4 * k)) ∧
        (∀ j, j ≠ 12 → (readReg t 0x04).getLsbD j = (readReg s 0x04).getLsbD j) ∧
        t.mem = s.mem ∧ t.lzw = s.lzw ∧ t.png = s.png ∧ t.free = s.free ∧ SameOutside s t) ∧
    (bits = 32 → addr.toNat ∈ [0x04, 0x1C, 0x24, 0x28, 0x3C] →
      step s = .next (tick { s with inbox := rest, outbox := .ok :: s.outbox })) ∧
    (bits = 8 →
      ((0x10000000 ≤ addr.toNat ∧ addr.toNat < 0x10000000 + s.params.inbufBytes) ∨
        (0x20000000 ≤ addr.toNat ∧ addr.toNat < 0x20000000 + s.params.outbufBytes) ∨
        (0x30000000 ≤ addr.toNat ∧ addr.toNat < 0x30000000 + s.params.maskbufBytes)) →
      ∃ t : State, step s = .next (tick { t with inbox := rest, outbox := .ok :: s.outbox }) ∧ t = { s with mem := t.mem } ∧
        t.byteAt addr.toNat = data.setWidth 8 ∧ ∀ a, a ≠ addr.toNat → t.byteAt a = s.byteAt a)

/-- 20_memory.md R65 to R67, 10_state.md R33: a read changes nothing but the host's answer, in every state. An aligned 32-bit
read in the register window answers the register's value, but for LZW_STAT while BUSY; a byte of INBUF reads as stored in
every state, a byte of OUTBUF or MASKBUF outside BUSY. The queue and the form of the answers (a byte zero-extended) are the
model's choice (logs 6, 20). -/
def Obligations.ReadsHaveNoSideEffects : Prop :=
  ∀ (s : State) (bits : Nat) (addr data : Word) (rest : List HostEvent),
    s.inbox = .bus ⟨false, bits, addr, data⟩ :: rest → s.hostMoves = true →
    (∃ r, step s = .next (tick { s with inbox := rest, outbox := r :: s.outbox })) ∧
    (bits = 32 → addr.toNat % 4 = 0 → addr.toNat ≤ 0x3C → s.engine ≠ .busy ∨ addr.toNat ≠ 0x3C →
      step s = .next (tick { s with inbox := rest, outbox := .data (readReg s addr.toNat) :: s.outbox })) ∧
    (bits = 8 → s.params.legal = true →
      (0x10000000 ≤ addr.toNat ∧ addr.toNat < 0x10000000 + s.params.inbufBytes) ∨
        (s.engine ≠ .busy ∧
          ((0x20000000 ≤ addr.toNat ∧ addr.toNat < 0x20000000 + s.params.outbufBytes) ∨
            (0x30000000 ≤ addr.toNat ∧ addr.toNat < 0x30000000 + s.params.maskbufBytes))) →
      step s = .next (tick { s with inbox := rest, outbox := .data ((s.byteAt addr.toNat).setWidth 32) :: s.outbox }))

/-- 20_memory.md R66: while BUSY a host write to a buffer or to a configuration or operand register is dropped and sets
CMDERR; a write to IRQ_EN takes effect. That a dropped write answers ok, and the queue the writes stand in, are the model's
choices (logs 20, 6). -/
def Obligations.BusyWritesAreDropped : Prop :=
  ∀ (s : State) (bits : Nat) (addr data : Word) (rest : List HostEvent), s.engine = .busy → s.hostMoves = true →
    s.inbox = .bus ⟨true, bits, addr, data⟩ :: rest → s.params.legal = true →
    ((bits = 32 ∧ addr.toNat ∈ [0x0C, 0x10, 0x14, 0x18, 0x20, 0x2C, 0x30, 0x34, 0x38]) ∨
      (bits = 8 ∧
        ((0x10000000 ≤ addr.toNat ∧ addr.toNat < 0x10000000 + s.params.inbufBytes) ∨
          (0x20000000 ≤ addr.toNat ∧ addr.toNat < 0x20000000 + s.params.outbufBytes) ∨
          (0x30000000 ≤ addr.toNat ∧ addr.toNat < 0x30000000 + s.params.maskbufBytes))) →
      step s = .next (tick { s with inbox := rest, outbox := .ok :: s.outbox, cmdErr := true })) ∧
    (bits = 32 ∧ addr.toNat = 0x08 →
      step s = .next (tick { s with inbox := rest, outbox := .ok :: s.outbox, irqEn := data.getLsbD 0 }))

/-- 10_state.md R27, R28: IN_FMT and OUT_FMT keep the written fields, and their other bits read 0. -/
def Obligations.FormatRegistersKeepTheirFields : Prop :=
  ∀ (s : State) (v : Word),
    readReg (storeReg s 0x14 v) 0x14 = v &&& 0x0001071F ∧ readReg (storeReg s 0x18 v) 0x18 = v &&& 0x0001071F

/-- What each register of 10_state.md R22 reads as, field by field: STATUS with the numbers of R24, 60_exceptions.md R261 and
R270 and the interrupt level of R25, LZW_STAT outside BUSY (R33), and the registers of R23 and R25 to R31 (STRIDE is
StrideIsDerived). That LZW_STAT shows the values of the last LZW decode in every state outside BUSY is log 5. -/
def Obligations.StatusShowsItsFields : Prop :=
  ∀ s : State,
    ((∀ p ∈ ([(.idle, 0), (.busy, 1), (.done, 2), (.fault, 3)] : List (EngState × Word)),
        s.engine = p.1 → (readReg s 0x04).extractLsb' 0 2 = p.2.setWidth 2) ∧
      (readReg s 0x04).getLsbD 2 = s.cmdErr ∧ (readReg s 0x04).getLsbD 3 = s.termSeen ∧
      (∀ p ∈ ([(.noFault, 0), (.formatSignatureMismatch, 1), (.prematureEndOfStream, 2), (.corruptChunk, 3),
          (.corruptBlock, 4), (.frameNotFound, 5), (.unsupportedConfiguration, 6), (.boundsCheck, 7)] :
          List (FaultCode × Word)),
        s.faultCode = p.1 → (readReg s 0x04).extractLsb' 4 4 = p.2.setWidth 4) ∧
      (∀ p ∈ ([(.noReason, 0), (.endCode, 1), (.pixelsDone, 2), (.tableFull, 3), (.terminator, 4), (.badCodeSoft, 5),
          (.rowsDone, 6)] : List (EndReason × Word)),
        s.endReason = p.1 → (readReg s 0x04).extractLsb' 8 4 = p.2.setWidth 4) ∧
      (readReg s 0x04).getLsbD 12 = s.irq ∧ (s.irq = true ↔ s.irqEn = true ∧ (s.engine = .done ∨ s.engine = .fault)) ∧
      (∀ p ∈ ([(.noUnit, 0), (.pb, 1), (.lzw, 2), (.png, 3)] : List (UnitSel × Word)),
        s.unit = p.1 → (readReg s 0x04).extractLsb' 13 2 = p.2.setWidth 2) ∧
      (readReg s 0x04).extractLsb' 15 17 = 0) ∧
    (s.engine ≠ .busy → (readReg s 0x3C).extractLsb' 0 4 = s.lzw.dataSize ∧
      (readReg s 0x3C).extractLsb' 4 4 = s.lzw.codeSize ∧ (readReg s 0x3C).extractLsb' 8 13 = s.lzw.available ∧
      (readReg s 0x3C).extractLsb' 21 11 = 0) ∧
    ((readReg s 0x14).extractLsb' 0 5 = s.inFmt.bitDepth ∧ (readReg s 0x14).extractLsb' 8 3 = s.inFmt.colorType ∧
      (readReg s 0x14).getLsbD 16 = s.inFmt.interlace ∧ readReg s 0x14 &&& ~~~0x0001071F = 0) ∧
    ((readReg s 0x18).extractLsb' 0 5 = s.outFmt.bpc ∧ (readReg s 0x18).extractLsb' 8 3 = s.outFmt.ncomp ∧
      (readReg s 0x18).getLsbD 16 = s.outFmt.mask ∧ readReg s 0x18 &&& ~~~0x0001071F = 0) ∧
    readReg s 0x00 = 0 ∧ readReg s 0x08 = (if s.irqEn then 1 else 0) ∧ readReg s 0x0C = s.width ∧
    readReg s 0x10 = s.height ∧ readReg s 0x20 = s.inLen ∧ readReg s 0x24 = s.inPos ∧ readReg s 0x28 = s.pixCnt ∧
    readReg s 0x2C = s.pxX ∧ readReg s 0x30 = s.pxY ∧ readReg s 0x34 = s.pxC ∧ readReg s 0x38 = s.pxV

/-- 10_state.md R32: STRIDE reads the row stride of the current registers, saturated. -/
def Obligations.StrideIsDerived : Prop :=
  ∀ s : State, (readReg s 0x1C).toNat =
    min ((s.width.toNat * s.outFmt.ncomp.toNat * s.outFmt.bpc.toNat + 7) / 8) 0xFFFFFFFF
end

