-- ==== Sys2Proof/Laws/Cells.lean ====
section
/-! SUPPORT. The listed-cells form of memories and internal arrays: what is read after a store, and that a store keeps
the canonical form whatever it started from. -/

namespace Sys2Proof.Machine

variable {α : Type}

@[simp] theorem cellsGet?_nil (i : Nat) : cellsGet? ([] : List (Nat × α)) i = none := rfl

theorem cellsGet?_cons (p : Nat × α) (l : List (Nat × α)) (i : Nat) :
    cellsGet? (p :: l) i = if p.1 = i then some p.2 else cellsGet? l i := by
  by_cases h : p.1 = i <;> simp [cellsGet?, h]

theorem cellsGet?_append (l m : List (Nat × α)) (i : Nat) :
    cellsGet? (l ++ m) i = (cellsGet? l i).or (cellsGet? m i) := by
  induction l with
  | nil => simp
  | cons p l ih => by_cases h : p.1 = i <;> simp [cellsGet?_cons, h, ih]

theorem cellsGet?_filter_pos (l : List (Nat × α)) (q : Nat → Bool) (i : Nat) (h : q i = true) :
    cellsGet? (l.filter fun p => q p.1) i = cellsGet? l i := by
  induction l with
  | nil => rfl
  | cons p l ih =>
    by_cases hp : p.1 = i
    · simp [cellsGet?_cons, hp, h]
    · by_cases hq : q p.1 = true <;> simp [cellsGet?_cons, hp, hq, ih]

theorem cellsGet?_filter_neg (l : List (Nat × α)) (q : Nat → Bool) (i : Nat) (h : q i = false) :
    cellsGet? (l.filter fun p => q p.1) i = none := by
  induction l with
  | nil => rfl
  | cons p l ih =>
    by_cases hq : q p.1 = true
    · have hp : p.1 ≠ i := fun e => by simp [e, h] at hq
      simp [cellsGet?_cons, hp, hq, ih]
    · simp [hq, ih]

theorem cellsGet?_cellsAt (vs : List α) : ∀ i j : Nat,
    cellsGet? (cellsAt i vs) j = if i ≤ j then vs[j - i]? else none := by
  induction vs with
  | nil => intro i j; simp [cellsAt]
  | cons v vs ih =>
    intro i j
    rw [cellsAt, cellsGet?_cons, ih]
    by_cases hij : i = j
    · subst hij; simp
    · by_cases hlt : i < j
      · have e : j - i = (j - (i + 1)) + 1 := by omega
        have h1 : i + 1 ≤ j := by omega
        have h2 : i ≤ j := by omega
        simp only [hij, if_false, h1, if_true, h2]
        rw [e, List.getElem?_cons_succ]
      · have h1 : ¬ i + 1 ≤ j := by omega
        have h2 : ¬ i ≤ j := by omega
        simp [hij, h1, h2]

/-- Reading after a store: the stored values at their indices, everything else as before. -/
theorem cellsGet?_put (l : List (Nat × α)) (i : Nat) (vs : List α) (j : Nat) :
    cellsGet? (cellsPut l i vs) j =
      if i ≤ j ∧ j < i + vs.length then vs[j - i]? else cellsGet? l j := by
  unfold cellsPut
  rw [cellsGet?_append, cellsGet?_append, cellsGet?_cellsAt]
  by_cases h1 : j < i
  · rw [cellsGet?_filter_pos l (fun k => decide (k < i)) j (by simp [h1]),
      cellsGet?_filter_neg l (fun k => decide (i + vs.length ≤ k)) j (by simp; omega)]
    have : ¬ i ≤ j := by omega
    simp [this]
  · rw [cellsGet?_filter_neg l (fun k => decide (k < i)) j (by simp; omega)]
    by_cases h2 : j < i + vs.length
    · rw [cellsGet?_filter_neg l (fun k => decide (i + vs.length ≤ k)) j (by simp; omega)]
      have h3 : i ≤ j := by omega
      simp [h3, h2]
    · rw [cellsGet?_filter_pos l (fun k => decide (i + vs.length ≤ k)) j (by simp; omega)]
      have h3 : i ≤ j := by omega
      have h4 : vs[j - i]? = none := by rw [List.getElem?_eq_none_iff]; omega
      simp [h3, h2, h4]

theorem mem_cellsAt (vs : List α) : ∀ (i : Nat) (p : Nat × α),
    p ∈ cellsAt i vs → i ≤ p.1 ∧ p.1 < i + vs.length := by
  induction vs with
  | nil => intro i p h; simp [cellsAt] at h
  | cons v vs ih =>
    intro i p h
    rw [cellsAt, List.mem_cons] at h
    rcases h with rfl | h
    · simp
    · have := ih _ _ h
      simp only [List.length_cons]; omega

theorem cellsAt_rising (vs : List α) : ∀ i : Nat, (cellsAt i vs).Pairwise fun p q => p.1 < q.1 := by
  induction vs with
  | nil => intro i; simp [cellsAt]
  | cons v vs ih =>
    intro i
    rw [cellsAt, List.pairwise_cons]
    exact ⟨fun p hp => by have := mem_cellsAt _ _ _ hp; show i < p.1; omega, ih _⟩

/-- A store keeps the addresses strictly rising. -/
theorem cellsPut_rising (l : List (Nat × α)) (i : Nat) (vs : List α)
    (h : l.Pairwise fun p q => p.1 < q.1) : (cellsPut l i vs).Pairwise fun p q => p.1 < q.1 := by
  unfold cellsPut
  rw [List.append_assoc, List.pairwise_append]
  refine ⟨h.filter _, ?_, ?_⟩
  · rw [List.pairwise_append]
    refine ⟨cellsAt_rising _ _, h.filter _, ?_⟩
    intro p hp q hq
    have h1 := mem_cellsAt _ _ _ hp
    have h2 := (List.mem_filter.1 hq).2
    simp only [decide_eq_true_eq] at h2
    omega
  · intro p hp q hq
    have h1 := (List.mem_filter.1 hp).2
    simp only [decide_eq_true_eq] at h1
    rcases List.mem_append.1 hq with hq | hq
    · have := mem_cellsAt _ _ _ hq; omega
    · have h2 := (List.mem_filter.1 hq).2
      simp only [decide_eq_true_eq] at h2
      omega

/-- Reading an internal array after a write. -/
theorem Table.get_put {w : Nat} (t : Table w) (i : Nat) (vs : List (BitVec w)) (j : Nat) :
    (t.put i vs).get j = if i ≤ j ∧ j < i + vs.length then vs.getD (j - i) 0 else t.get j := by
  unfold Table.get Table.put
  simp only [cellsGet?_put]
  by_cases h : i ≤ j ∧ j < i + vs.length
  · have hlt : j - i < vs.length := by omega
    simp [h, hlt]
  · simp [h]

@[simp] theorem Table.get_put_one {w : Nat} (t : Table w) (i : Nat) (v : BitVec w) : (t.put i [v]).get i = v := by
  simp [Table.get_put]

theorem Table.get_put_ne {w : Nat} (t : Table w) (i j : Nat) (v : BitVec w) (h : j ≠ i) :
    (t.put i [v]).get j = t.get j := by
  rw [Table.get_put, if_neg]; simp; omega

@[simp] theorem Table.prefixList_length {w : Nat} (t : Table w) (n : Nat) : (t.prefixList n).length = n := by
  simp [Table.prefixList]

theorem Table.prefixList_succ {w : Nat} (t : Table w) (n : Nat) :
    t.prefixList (n + 1) = t.prefixList n ++ [t.get n] := by
  simp [Table.prefixList, List.range_succ]

/-- Writing past the first `n` entries leaves them. -/
theorem Table.prefixList_put {w : Nat} (t : Table w) (i n : Nat) (vs : List (BitVec w)) (h : n ≤ i) :
    (t.put i vs).prefixList n = t.prefixList n := by
  unfold Table.prefixList
  apply List.map_congr_left
  intro k hk
  have hk := List.mem_range.1 hk
  rw [Table.get_put, if_neg (by omega)]

/-- Reading a byte after a buffer write: the bytes written at their addresses, everything else as before. -/
theorem State.byteAt_poke (s : State) (sp : Space) (i : Nat) (bytes : List Byte) (a : Nat) :
    (s.poke sp i bytes).byteAt a =
      if sp.base + i ≤ a ∧ a < sp.base + i + bytes.length then bytes.getD (a - (sp.base + i)) 0 else s.byteAt a := by
  unfold State.byteAt State.poke
  simp only [cellsGet?_put]
  by_cases h : sp.base + i ≤ a ∧ a < sp.base + i + bytes.length
  · have hlt : a - (sp.base + i) < bytes.length := by omega
    simp [h, hlt]
  · simp [h]

/-- A buffer write leaves every address outside the bytes it stores. -/
theorem State.byteAt_poke_outside (s : State) (sp : Space) (i : Nat) (bytes : List Byte) (a : Nat)
    (h : ¬ (sp.base + i ≤ a ∧ a < sp.base + i + bytes.length)) : (s.poke sp i bytes).byteAt a = s.byteAt a := by
  rw [State.byteAt_poke, if_neg h]

/-- A buffer write keeps the canonical form. -/
theorem State.poke_wf (s : State) (sp : Space) (i : Nat) (bytes : List Byte) (h : Memory.wf s.mem) :
    Memory.wf (s.poke sp i bytes).mem := cellsPut_rising _ _ _ h

/-- Zero-filling keeps the canonical form. -/
theorem State.zeroFill_wf (s : State) (sp : Space) (n : Nat) (h : Memory.wf s.mem) :
    Memory.wf (s.zeroFill sp n).mem := cellsPut_rising _ _ _ h

/-- Zero-filling: zero inside, everything else as before. -/
theorem State.byteAt_zeroFill (s : State) (sp : Space) (n a : Nat) :
    (s.zeroFill sp n).byteAt a = if sp.base ≤ a ∧ a < sp.base + n then 0 else s.byteAt a := by
  unfold State.zeroFill
  rw [State.byteAt_poke]
  simp only [List.length_replicate, Nat.add_zero]
  split
  · rw [List.getD_eq_getElem?_getD, List.getElem?_replicate]
    split <;> rfl
  · rfl

/-- Scrambling a region leaves every address outside it. -/
theorem State.byteAt_scramble_outside (s : State) (sp : Space) (n a : Nat)
    (h : ¬ (sp.base ≤ a ∧ a < sp.base + n)) : (s.scramble sp n).byteAt a = s.byteAt a :=
  State.byteAt_poke_outside s sp 0 _ a (by simpa using h)

/-- Scrambling keeps the canonical form. -/
theorem State.scramble_wf (s : State) (sp : Space) (n : Nat) (h : Memory.wf s.mem) :
    Memory.wf (s.scramble sp n).mem := cellsPut_rising _ _ _ h

/-- Stopping a unit keeps the canonical form. -/
theorem scrambleOutput_wf (s : State) (h : Memory.wf s.mem) : Memory.wf (scrambleOutput s).mem := by
  unfold scrambleOutput
  split
  · exact State.scramble_wf _ _ _ (State.scramble_wf _ _ _ h)
  · exact State.scramble_wf _ _ _ h

/-- Placing a pixel keeps the canonical form. -/
theorem setPixel_wf (s : State) (x y c v : Nat) (h : Memory.wf s.mem) : Memory.wf (setPixel s x y c v).mem := by
  unfold setPixel
  dsimp only
  split
  · exact State.poke_wf _ _ _ _ h
  · split <;> exact State.poke_wf _ _ _ _ h

/-- The memory of the reset state has the canonical form. -/
theorem reset_mem_wf : Memory.wf State.reset.mem := List.Pairwise.nil

end Sys2Proof.Machine
end

