-- ==== Sys2Proof/Laws/Lzw.lean ====
section
/-! SUPPORT. The LZW unit's operations: what a push, a prefix walk, a growth check and a new entry leave. -/

namespace Sys2Proof.Machine

/-- The parts of the unit that pushes leave alone: everything but the stack and its depth. -/
def Lzw.SameDict (l m : Lzw) : Prop := m = { l with stack := m.stack, top := m.top }

theorem Lzw.SameDict.refl (l : Lzw) : l.SameDict l := rfl

theorem Lzw.SameDict.trans {l m n : Lzw} (h : l.SameDict m) (k : m.SameDict n) : l.SameDict n := by
  unfold Lzw.SameDict at *
  rw [h] at k
  exact k

theorem Lzw.SameDict.pfx {l m : Lzw} (h : l.SameDict m) : m.pfx = l.pfx := by rw [h]
theorem Lzw.SameDict.sfx {l m : Lzw} (h : l.SameDict m) : m.sfx = l.sfx := by rw [h]
theorem Lzw.SameDict.clearCode {l m : Lzw} (h : l.SameDict m) : m.clearCode = l.clearCode := by rw [h]
theorem Lzw.SameDict.available {l m : Lzw} (h : l.SameDict m) : m.available = l.available := by rw [h]
theorem Lzw.SameDict.first {l m : Lzw} (h : l.SameDict m) : m.first = l.first := by rw [h]

/-- The stack from its bottom to its top. -/
def Lzw.stackUp (l : Lzw) : List Byte := l.stack.prefixList l.top.toNat

/-- A push on a stack that is not full puts the value on top and changes nothing else. -/
theorem Lzw.push?_spec (l : Lzw) (v : Byte) (h : l.top.toNat < Config.lzwStackEntries) :
    ∃ m, l.push? v = some m ∧ l.SameDict m ∧ m.top.toNat = l.top.toNat + 1 ∧ m.stackUp = l.stackUp ++ [v] := by
  have ht : (l.top + 1).toNat = l.top.toNat + 1 := by
    simp only [Config.lzwStackEntries] at h
    simp only [BitVec.toNat_add, BitVec.ofNat_eq_ofNat, BitVec.toNat_ofNat]; omega
  refine ⟨{ l with stack := l.stack.put l.top.toNat [v], top := l.top + 1 }, ?_, rfl, ht, ?_⟩
  · unfold Lzw.push?; rw [if_neg (by omega)]
  · unfold Lzw.stackUp
    simp only [ht]
    rw [Table.prefixList_succ, Table.get_put_one, Table.prefixList_put _ _ _ _ (Nat.le_refl _)]

/-- A push answers nothing exactly when the stack is full. -/
theorem Lzw.push?_none (l : Lzw) (v : Byte) : l.push? v = none ↔ Config.lzwStackEntries ≤ l.top.toNat := by
  unfold Lzw.push?; split <;> simp [*]

/-- Enough fuel gives one string. -/
theorem Lzw.stringFrom_fuel (l : Lzw)
    (hc : ∀ j, l.clearCode.toNat + 2 ≤ j → j < l.available.toNat → l.entryBelow j (l.pfx.get j)) :
    ∀ (n : Nat) (code : BitVec 12) (f g : Nat), code.toNat ≤ n → l.entryBelow l.available.toNat code →
      code.toNat ≤ f → code.toNat ≤ g → l.stringFrom f code = l.stringFrom g code := by
  intro n
  induction n with
  | zero =>
    intro code f g hn _ _ _
    have h0 : ¬ l.clearCode.toNat < code.toNat := by omega
    cases f <;> cases g <;> simp [Lzw.stringFrom, h0]
  | succ n ih =>
    intro code f g hn he hf hg
    by_cases h : l.clearCode.toNat < code.toNat
    · obtain ⟨f, rfl⟩ : ∃ k, f = k + 1 := ⟨f - 1, by omega⟩
      obtain ⟨g, rfl⟩ : ∃ k, g = k + 1 := ⟨g - 1, by omega⟩
      have hp := hc code.toNat (by have := he.2; omega) he.1
      have hlt := hp.1
      simp only [Lzw.stringFrom, h, if_true]
      rw [ih (l.pfx.get code.toNat) f g (by omega) ⟨by have := he.1; omega, hp.2⟩ (by omega) (by omega)]
    · cases f <;> cases g <;> simp [Lzw.stringFrom, h]

/-- One step of the string of an entry. -/
theorem Lzw.string_entry (l : Lzw)
    (hc : ∀ j, l.clearCode.toNat + 2 ≤ j → j < l.available.toNat → l.entryBelow j (l.pfx.get j))
    (code : BitVec 12) (he : l.entryBelow l.available.toNat code) (h : l.clearCode.toNat < code.toNat) :
    l.string code = l.string (l.pfx.get code.toNat) ++ [l.sfx.get code.toNat] := by
  have hp := hc code.toNat (by have := he.2; omega) he.1
  have hlt := hp.1
  have h4 := code.isLt
  unfold Lzw.string Config.lzwTableEntries
  rw [show (4096 : Nat) = 4095 + 1 from rfl]
  conv_lhs => rw [Lzw.stringFrom]
  rw [if_pos h, Lzw.stringFrom_fuel l hc 4096 _ 4095 (4095 + 1) (by omega) ⟨by have := he.1; omega, hp.2⟩ (by omega) (by omega)]

/-- The string of a root is its one pixel. -/
theorem Lzw.string_root (l : Lzw) (code : BitVec 12) (h : ¬ l.clearCode.toNat < code.toNat) :
    l.string code = [l.sfx.get code.toNat] := by
  unfold Lzw.string Config.lzwTableEntries
  rw [show (4096 : Nat) = 4095 + 1 from rfl, Lzw.stringFrom, if_neg h]

/-- A string depends on the dictionary alone. -/
theorem Lzw.string_sameDict {l m : Lzw} (h : l.SameDict m) (code : BitVec 12) : m.string code = l.string code := by
  unfold Lzw.string
  generalize Config.lzwTableEntries = f
  induction f generalizing code with
  | zero => simp only [Lzw.stringFrom, h.sfx]
  | succ f ih => simp only [Lzw.stringFrom, h.sfx, h.pfx, h.clearCode, ih]

/-- The prefix walk from a code of a good dictionary: it ends at a root, having pushed the code's string but for the
root's pixel, last pixel first, and it changes only the stack. -/
theorem walkPrefix_spec : ∀ (n fuel : Nat) (code : BitVec 12) (l : Lzw),
    (∀ j, l.clearCode.toNat + 2 ≤ j → j < l.available.toNat → l.entryBelow j (l.pfx.get j)) →
    l.entryBelow l.available.toNat code → code.toNat - l.clearCode.toNat ≤ n → n < fuel →
    l.top.toNat + n ≤ Config.lzwStackEntries →
    ∃ root m, walkPrefix fuel code l = some (root, m) ∧ root.toNat < l.clearCode.toNat ∧ l.SameDict m ∧
      m.top.toNat ≤ l.top.toNat + n ∧
      m.stackUp ++ [l.sfx.get root.toNat] = l.stackUp ++ (l.string code).reverse := by
  intro n
  induction n with
  | zero =>
    intro fuel code l _ he hn hf _
    obtain ⟨fuel, rfl⟩ : ∃ k, fuel = k + 1 := ⟨fuel - 1, by omega⟩
    have h0 : ¬ l.clearCode.toNat < code.toNat := by omega
    have hr : code.toNat < l.clearCode.toNat := by have := he.2; omega
    exact ⟨code, l, by simp [walkPrefix, h0], hr, rfl, by omega, by simp [Lzw.string_root l code h0]⟩
  | succ n ih =>
    intro fuel code l hc he hn hf ht
    obtain ⟨fuel, rfl⟩ : ∃ k, fuel = k + 1 := ⟨fuel - 1, by omega⟩
    by_cases h : l.clearCode.toNat < code.toNat
    · have hp := hc code.toNat (by have := he.2; omega) he.1
      have hlt := hp.1
      obtain ⟨m, hm, hs, hmt, hmu⟩ := l.push?_spec (l.sfx.get code.toNat) (by omega)
      have hc' : ∀ j, m.clearCode.toNat + 2 ≤ j → j < m.available.toNat → m.entryBelow j (m.pfx.get j) := by
        intro j h1 h2
        rw [hs.clearCode] at h1
        rw [hs.available] at h2
        unfold Lzw.entryBelow
        rw [hs.pfx, hs.clearCode]
        exact hc j h1 h2
      have he' : m.entryBelow m.available.toNat (l.pfx.get code.toNat) := by
        unfold Lzw.entryBelow
        rw [hs.available, hs.clearCode]
        exact ⟨by have := he.1; omega, hp.2⟩
      obtain ⟨root, k, hk, hroot, hsk, hkt, hku⟩ :=
        ih fuel (l.pfx.get code.toNat) m hc' he' (by rw [hs.clearCode]; omega) (by omega) (by omega)
      refine ⟨root, k, ?_, by rw [hs.clearCode] at hroot; exact hroot, hs.trans hsk, by omega, ?_⟩
      · simp [walkPrefix, h, hm, hk]
      · rw [hs.sfx] at hku
        rw [hku, hmu, Lzw.string_sameDict hs, Lzw.string_entry l hc code he h]
        simp
    · have hr : code.toNat < l.clearCode.toNat := by have := he.2; omega
      exact ⟨code, l, by simp [walkPrefix, h], hr, rfl, by omega, by simp [Lzw.string_root l code h]⟩

/-- The pixels that a data code places: its string, and for the code of the entry being built the previous code's string
and the last first pixel (42_lzw.md R173). -/
def Lzw.pixelsOf (l : Lzw) (old code : BitVec 12) : List Byte :=
  if code.toNat = l.available.toNat then l.string old ++ [l.first] else l.string code

/-- The walk of a data code from an empty stack: pushes for a KWKWK code and then the prefix walk. -/
theorem Lzw.walk_spec (l : Lzw) (old code : BitVec 12)
    (hc : ∀ j, l.clearCode.toNat + 2 ≤ j → j < l.available.toNat → l.entryBelow j (l.pfx.get j))
    (ha : l.available.toNat ≤ 4096) (ho : l.entryBelow l.available.toNat old) (ht : l.top.toNat = 0)
    (he : l.entryBelow l.available.toNat code ∨ code.toNat = l.available.toNat) :
    ∃ root m, ((l.walkStart? old code).bind fun r => walkPrefix (Config.lzwStackEntries + 1) r.1 r.2) = some (root, m) ∧
      root.toNat < l.clearCode.toNat ∧ l.SameDict m ∧ m.top.toNat < Config.lzwStackEntries ∧
      m.stackUp ++ [l.sfx.get root.toNat] = (l.pixelsOf old code).reverse := by
  have hnil : l.stackUp = [] := by simp [Lzw.stackUp, Table.prefixList, ht]
  have hlim : Config.lzwStackEntries = 4097 := rfl
  by_cases hk : code.toNat = l.available.toNat
  · obtain ⟨m, hm, hs, hmt, hmu⟩ := l.push?_spec l.first (by omega)
    have hc' : ∀ j, m.clearCode.toNat + 2 ≤ j → j < m.available.toNat → m.entryBelow j (m.pfx.get j) := by
      intro j h1 h2
      rw [hs.clearCode] at h1
      rw [hs.available] at h2
      unfold Lzw.entryBelow
      rw [hs.pfx, hs.clearCode]
      exact hc j h1 h2
    have ho' : m.entryBelow m.available.toNat old := by
      unfold Lzw.entryBelow
      rw [hs.available, hs.clearCode]
      exact ho
    have hA := code.isLt
    obtain ⟨root, k, hw, hr, hsk, hkt, hku⟩ :=
      walkPrefix_spec 4095 (Config.lzwStackEntries + 1) old m hc' ho' (by have := ho.1; omega) (by omega) (by omega)
    refine ⟨root, k, ?_, by rw [hs.clearCode] at hr; exact hr, hs.trans hsk, by omega, ?_⟩
    · simp [Lzw.walkStart?, hk, hm, hw]
    · rw [hs.sfx] at hku
      rw [hku, hmu, hnil, Lzw.string_sameDict hs, Lzw.pixelsOf, if_pos hk]
      simp
  · have he : l.entryBelow l.available.toNat code := he.resolve_right hk
    have hA := code.isLt
    obtain ⟨root, k, hw, hr, hsk, hkt, hku⟩ :=
      walkPrefix_spec 4095 (Config.lzwStackEntries + 1) code l hc he (by omega) (by omega) (by omega)
    refine ⟨root, k, ?_, hr, hsk, by omega, ?_⟩
    · simp [Lzw.walkStart?, hk, hw]
    · rw [hku, hnil, Lzw.pixelsOf, if_neg hk]
      simp

/-- What a data code does when the table is not full: the stack holds its pixels in the order they are popped, the entry is
added, and nothing else of the state changes. -/
theorem decodeStep_next (s : State) (old code : BitVec 12) (hold : s.lzw.oldCode = some old)
    (hc : ∀ j, s.lzw.clearCode.toNat + 2 ≤ j → j < s.lzw.available.toNat → s.lzw.entryBelow j (s.lzw.pfx.get j))
    (ha : s.lzw.available.toNat < 4096) (ho : s.lzw.entryBelow s.lzw.available.toNat old) (ht : s.lzw.top.toNat = 0)
    (he : s.lzw.entryBelow s.lzw.available.toNat code ∨ code.toNat = s.lzw.available.toNat) :
    ∃ (root : BitVec 12) (m : Lzw), decodeStep code s = .next { s with lzw := Lzw.addEntry m old code } ∧
      root.toNat < s.lzw.clearCode.toNat ∧
      m = { s.lzw with stack := m.stack, top := m.top, first := s.lzw.sfx.get root.toNat } ∧
      m.stackList = s.lzw.pixelsOf old code := by
  obtain ⟨root, m, hw, hr, hs, hmt, hmu⟩ := s.lzw.walk_spec old code hc (by omega) ho ht he
  obtain ⟨k, hk, hsk, hkt, hku⟩ := Lzw.push?_spec { m with first := s.lzw.sfx.get root.toNat }
    (s.lzw.sfx.get root.toNat) hmt
  refine ⟨root, k, ?_, hr, ?_, ?_⟩
  · have hna : ¬ Config.lzwTableEntries ≤ s.lzw.available.toNat := by
      simp only [Config.lzwTableEntries]; omega
    unfold decodeStep
    rw [hold]
    dsimp only
    rw [hw]
    dsimp only
    rw [hs.available, hs.sfx] at hk
    rw [hs.available, if_neg hna, hs.sfx, hk]
  · unfold Lzw.SameDict at hs hsk
    rw [hsk]
    conv_lhs => rw [hs]
  · have : k.stackList = k.stackUp.reverse := rfl
    rw [this, hku]
    have e : Lzw.stackUp { m with first := s.lzw.sfx.get root.toNat } = m.stackUp := rfl
    rw [e, hmu, List.reverse_reverse]

/-- What a data code does when the table is full: the decode ends, with no entry added and no pixel placed. -/
theorem decodeStep_full (s : State) (old code : BitVec 12) (hold : s.lzw.oldCode = some old)
    (hc : ∀ j, s.lzw.clearCode.toNat + 2 ≤ j → j < s.lzw.available.toNat → s.lzw.entryBelow j (s.lzw.pfx.get j))
    (ha : s.lzw.available.toNat = 4096) (ho : s.lzw.entryBelow s.lzw.available.toNat old) (ht : s.lzw.top.toNat = 0)
    (he : s.lzw.entryBelow s.lzw.available.toNat code) :
    ∃ m : Lzw, decodeStep code s = .next (finish .tableFull { s with lzw := m }) ∧
      m = { s.lzw with stack := m.stack, top := m.top, first := m.first } := by
  obtain ⟨root, m, hw, hr, hs, hmt, hmu⟩ := s.lzw.walk_spec old code hc (by omega) ho ht (Or.inl he)
  refine ⟨{ m with first := m.sfx.get root.toNat }, ?_, ?_⟩
  · have hna : Config.lzwTableEntries ≤ s.lzw.available.toNat := by
      simp only [Config.lzwTableEntries]; omega
    unfold decodeStep
    rw [hold]
    dsimp only
    rw [hw]
    dsimp only
    rw [hs.available, if_pos hna]
  · rw [hs.sfx]
    unfold Lzw.SameDict at hs
    conv_lhs => rw [hs]

/-- The growth check changes at most the code size. -/
theorem Lzw.grow_spec (l : Lzw) :
    l.grow = { l with codeSize := l.grow.codeSize } ∧
      l.grow.codeSize =
        if l.available.toNat = 2 ^ l.codeSize.toNat ∧ l.available.toNat < 4096 then l.codeSize + 1 else l.codeSize := by
  unfold Lzw.grow Config.lzwTableEntries
  by_cases h : l.available.toNat = 2 ^ l.codeSize.toNat ∧ l.available.toNat < 4096
  · simp [h.1.symm, h.2]
  · have h' : ¬ ((decide (l.available.toNat = 2 ^ l.codeSize.toNat) && decide (l.available.toNat < 4096)) = true) := by
      simpa using h
    simp only [h', h, if_false]
    exact ⟨rfl, rfl⟩

end Sys2Proof.Machine
end

