-- ==== Sys2Proof/Laws/State.lean ====
section
/-! SUPPORT. One lemma per field for each named update of the state, so that no proof unfolds an update. -/

namespace Sys2Proof.Machine

/-! ### refuse -/

@[simp] theorem refuse_params (s : State) : (refuse s).params = s.params := rfl
@[simp] theorem refuse_engine (s : State) : (refuse s).engine = s.engine := rfl
@[simp] theorem refuse_cmdErr (s : State) : (refuse s).cmdErr = true := rfl
@[simp] theorem refuse_termSeen (s : State) : (refuse s).termSeen = s.termSeen := rfl
@[simp] theorem refuse_faultCode (s : State) : (refuse s).faultCode = s.faultCode := rfl
@[simp] theorem refuse_endReason (s : State) : (refuse s).endReason = s.endReason := rfl
@[simp] theorem refuse_unit (s : State) : (refuse s).unit = s.unit := rfl
@[simp] theorem refuse_irqEn (s : State) : (refuse s).irqEn = s.irqEn := rfl
@[simp] theorem refuse_width (s : State) : (refuse s).width = s.width := rfl
@[simp] theorem refuse_height (s : State) : (refuse s).height = s.height := rfl
@[simp] theorem refuse_inFmt (s : State) : (refuse s).inFmt = s.inFmt := rfl
@[simp] theorem refuse_outFmt (s : State) : (refuse s).outFmt = s.outFmt := rfl
@[simp] theorem refuse_inLen (s : State) : (refuse s).inLen = s.inLen := rfl
@[simp] theorem refuse_inPos (s : State) : (refuse s).inPos = s.inPos := rfl
@[simp] theorem refuse_pixCnt (s : State) : (refuse s).pixCnt = s.pixCnt := rfl
@[simp] theorem refuse_pxX (s : State) : (refuse s).pxX = s.pxX := rfl
@[simp] theorem refuse_pxY (s : State) : (refuse s).pxY = s.pxY := rfl
@[simp] theorem refuse_pxC (s : State) : (refuse s).pxC = s.pxC := rfl
@[simp] theorem refuse_pxV (s : State) : (refuse s).pxV = s.pxV := rfl
@[simp] theorem refuse_lzw (s : State) : (refuse s).lzw = s.lzw := rfl
@[simp] theorem refuse_png (s : State) : (refuse s).png = s.png := rfl
@[simp] theorem refuse_mem (s : State) : (refuse s).mem = s.mem := rfl
@[simp] theorem refuse_epoch (s : State) : (refuse s).epoch = s.epoch := rfl
@[simp] theorem refuse_free (s : State) : (refuse s).free = s.free := rfl
@[simp] theorem refuse_inbox (s : State) : (refuse s).inbox = s.inbox := rfl
@[simp] theorem refuse_outbox (s : State) : (refuse s).outbox = s.outbox := rfl
@[simp] theorem refuse_hostNext (s : State) : (refuse s).hostNext = s.hostNext := rfl

/-! ### raise -/

@[simp] theorem raise_params (code : FaultCode) (s : State) : (raise code s).params = s.params := rfl
@[simp] theorem raise_engine (code : FaultCode) (s : State) : (raise code s).engine = .fault := rfl
@[simp] theorem raise_cmdErr (code : FaultCode) (s : State) : (raise code s).cmdErr = s.cmdErr := rfl
@[simp] theorem raise_termSeen (code : FaultCode) (s : State) : (raise code s).termSeen = s.termSeen := rfl
@[simp] theorem raise_faultCode (code : FaultCode) (s : State) : (raise code s).faultCode = code := rfl
@[simp] theorem raise_endReason (code : FaultCode) (s : State) : (raise code s).endReason = .noReason := rfl
@[simp] theorem raise_unit (code : FaultCode) (s : State) : (raise code s).unit = s.unit := rfl
@[simp] theorem raise_irqEn (code : FaultCode) (s : State) : (raise code s).irqEn = s.irqEn := rfl
@[simp] theorem raise_width (code : FaultCode) (s : State) : (raise code s).width = s.width := rfl
@[simp] theorem raise_height (code : FaultCode) (s : State) : (raise code s).height = s.height := rfl
@[simp] theorem raise_inFmt (code : FaultCode) (s : State) : (raise code s).inFmt = s.inFmt := rfl
@[simp] theorem raise_outFmt (code : FaultCode) (s : State) : (raise code s).outFmt = s.outFmt := rfl
@[simp] theorem raise_inLen (code : FaultCode) (s : State) : (raise code s).inLen = s.inLen := rfl
@[simp] theorem raise_inPos (code : FaultCode) (s : State) : (raise code s).inPos = s.inPos := rfl
@[simp] theorem raise_pixCnt (code : FaultCode) (s : State) : (raise code s).pixCnt = s.pixCnt := rfl
@[simp] theorem raise_pxX (code : FaultCode) (s : State) : (raise code s).pxX = s.pxX := rfl
@[simp] theorem raise_pxY (code : FaultCode) (s : State) : (raise code s).pxY = s.pxY := rfl
@[simp] theorem raise_pxC (code : FaultCode) (s : State) : (raise code s).pxC = s.pxC := rfl
@[simp] theorem raise_pxV (code : FaultCode) (s : State) : (raise code s).pxV = s.pxV := rfl
@[simp] theorem raise_lzw (code : FaultCode) (s : State) : (raise code s).lzw = s.lzw := rfl
@[simp] theorem raise_png (code : FaultCode) (s : State) : (raise code s).png = s.png := rfl
@[simp] theorem raise_mem (code : FaultCode) (s : State) : (raise code s).mem = s.mem := rfl
@[simp] theorem raise_epoch (code : FaultCode) (s : State) : (raise code s).epoch = s.epoch := rfl
@[simp] theorem raise_free (code : FaultCode) (s : State) : (raise code s).free = s.free := rfl
@[simp] theorem raise_inbox (code : FaultCode) (s : State) : (raise code s).inbox = s.inbox := rfl
@[simp] theorem raise_outbox (code : FaultCode) (s : State) : (raise code s).outbox = s.outbox := rfl
@[simp] theorem raise_hostNext (code : FaultCode) (s : State) : (raise code s).hostNext = s.hostNext := rfl

/-! ### raisePb -/

@[simp] theorem raisePb_params (code : FaultCode) (s : State) : (raisePb code s).params = s.params := rfl
@[simp] theorem raisePb_engine (code : FaultCode) (s : State) : (raisePb code s).engine = .fault := rfl
@[simp] theorem raisePb_cmdErr (code : FaultCode) (s : State) : (raisePb code s).cmdErr = s.cmdErr := rfl
@[simp] theorem raisePb_termSeen (code : FaultCode) (s : State) : (raisePb code s).termSeen = s.termSeen := rfl
@[simp] theorem raisePb_faultCode (code : FaultCode) (s : State) : (raisePb code s).faultCode = code := rfl
@[simp] theorem raisePb_endReason (code : FaultCode) (s : State) : (raisePb code s).endReason = .noReason := rfl
@[simp] theorem raisePb_unit (code : FaultCode) (s : State) : (raisePb code s).unit = .pb := rfl
@[simp] theorem raisePb_irqEn (code : FaultCode) (s : State) : (raisePb code s).irqEn = s.irqEn := rfl
@[simp] theorem raisePb_width (code : FaultCode) (s : State) : (raisePb code s).width = s.width := rfl
@[simp] theorem raisePb_height (code : FaultCode) (s : State) : (raisePb code s).height = s.height := rfl
@[simp] theorem raisePb_inFmt (code : FaultCode) (s : State) : (raisePb code s).inFmt = s.inFmt := rfl
@[simp] theorem raisePb_outFmt (code : FaultCode) (s : State) : (raisePb code s).outFmt = s.outFmt := rfl
@[simp] theorem raisePb_inLen (code : FaultCode) (s : State) : (raisePb code s).inLen = s.inLen := rfl
@[simp] theorem raisePb_inPos (code : FaultCode) (s : State) : (raisePb code s).inPos = s.inPos := rfl
@[simp] theorem raisePb_pixCnt (code : FaultCode) (s : State) : (raisePb code s).pixCnt = s.pixCnt := rfl
@[simp] theorem raisePb_pxX (code : FaultCode) (s : State) : (raisePb code s).pxX = s.pxX := rfl
@[simp] theorem raisePb_pxY (code : FaultCode) (s : State) : (raisePb code s).pxY = s.pxY := rfl
@[simp] theorem raisePb_pxC (code : FaultCode) (s : State) : (raisePb code s).pxC = s.pxC := rfl
@[simp] theorem raisePb_pxV (code : FaultCode) (s : State) : (raisePb code s).pxV = s.pxV := rfl
@[simp] theorem raisePb_lzw (code : FaultCode) (s : State) : (raisePb code s).lzw = s.lzw := rfl
@[simp] theorem raisePb_png (code : FaultCode) (s : State) : (raisePb code s).png = s.png := rfl
@[simp] theorem raisePb_mem (code : FaultCode) (s : State) : (raisePb code s).mem = s.mem := rfl
@[simp] theorem raisePb_epoch (code : FaultCode) (s : State) : (raisePb code s).epoch = s.epoch := rfl
@[simp] theorem raisePb_free (code : FaultCode) (s : State) : (raisePb code s).free = s.free := rfl
@[simp] theorem raisePb_inbox (code : FaultCode) (s : State) : (raisePb code s).inbox = s.inbox := rfl
@[simp] theorem raisePb_outbox (code : FaultCode) (s : State) : (raisePb code s).outbox = s.outbox := rfl
@[simp] theorem raisePb_hostNext (code : FaultCode) (s : State) : (raisePb code s).hostNext = s.hostNext := rfl

/-! ### finish -/

@[simp] theorem finish_params (reason : EndReason) (s : State) : (finish reason s).params = s.params := rfl
@[simp] theorem finish_engine (reason : EndReason) (s : State) : (finish reason s).engine = .done := rfl
@[simp] theorem finish_cmdErr (reason : EndReason) (s : State) : (finish reason s).cmdErr = s.cmdErr := rfl
@[simp] theorem finish_termSeen (reason : EndReason) (s : State) : (finish reason s).termSeen = s.termSeen := rfl
@[simp] theorem finish_faultCode (reason : EndReason) (s : State) : (finish reason s).faultCode = s.faultCode := rfl
@[simp] theorem finish_endReason (reason : EndReason) (s : State) : (finish reason s).endReason = reason := rfl
@[simp] theorem finish_unit (reason : EndReason) (s : State) : (finish reason s).unit = s.unit := rfl
@[simp] theorem finish_irqEn (reason : EndReason) (s : State) : (finish reason s).irqEn = s.irqEn := rfl
@[simp] theorem finish_width (reason : EndReason) (s : State) : (finish reason s).width = s.width := rfl
@[simp] theorem finish_height (reason : EndReason) (s : State) : (finish reason s).height = s.height := rfl
@[simp] theorem finish_inFmt (reason : EndReason) (s : State) : (finish reason s).inFmt = s.inFmt := rfl
@[simp] theorem finish_outFmt (reason : EndReason) (s : State) : (finish reason s).outFmt = s.outFmt := rfl
@[simp] theorem finish_inLen (reason : EndReason) (s : State) : (finish reason s).inLen = s.inLen := rfl
@[simp] theorem finish_inPos (reason : EndReason) (s : State) : (finish reason s).inPos = s.inPos := rfl
@[simp] theorem finish_pixCnt (reason : EndReason) (s : State) : (finish reason s).pixCnt = s.pixCnt := rfl
@[simp] theorem finish_pxX (reason : EndReason) (s : State) : (finish reason s).pxX = s.pxX := rfl
@[simp] theorem finish_pxY (reason : EndReason) (s : State) : (finish reason s).pxY = s.pxY := rfl
@[simp] theorem finish_pxC (reason : EndReason) (s : State) : (finish reason s).pxC = s.pxC := rfl
@[simp] theorem finish_pxV (reason : EndReason) (s : State) : (finish reason s).pxV = s.pxV := rfl
@[simp] theorem finish_lzw (reason : EndReason) (s : State) : (finish reason s).lzw = s.lzw := rfl
@[simp] theorem finish_png (reason : EndReason) (s : State) : (finish reason s).png = s.png := rfl
@[simp] theorem finish_mem (reason : EndReason) (s : State) : (finish reason s).mem = s.mem := rfl
@[simp] theorem finish_epoch (reason : EndReason) (s : State) : (finish reason s).epoch = s.epoch := rfl
@[simp] theorem finish_free (reason : EndReason) (s : State) : (finish reason s).free = s.free := rfl
@[simp] theorem finish_inbox (reason : EndReason) (s : State) : (finish reason s).inbox = s.inbox := rfl
@[simp] theorem finish_outbox (reason : EndReason) (s : State) : (finish reason s).outbox = s.outbox := rfl
@[simp] theorem finish_hostNext (reason : EndReason) (s : State) : (finish reason s).hostNext = s.hostNext := rfl

/-! ### beginUnit -/

@[simp] theorem beginUnit_params (u : UnitSel) (s : State) : (beginUnit u s).params = s.params := rfl
@[simp] theorem beginUnit_engine (u : UnitSel) (s : State) : (beginUnit u s).engine = s.engine := rfl
@[simp] theorem beginUnit_cmdErr (u : UnitSel) (s : State) : (beginUnit u s).cmdErr = s.cmdErr := rfl
@[simp] theorem beginUnit_termSeen (u : UnitSel) (s : State) : (beginUnit u s).termSeen = s.termSeen := rfl
@[simp] theorem beginUnit_faultCode (u : UnitSel) (s : State) : (beginUnit u s).faultCode = .noFault := rfl
@[simp] theorem beginUnit_endReason (u : UnitSel) (s : State) : (beginUnit u s).endReason = .noReason := rfl
@[simp] theorem beginUnit_unit (u : UnitSel) (s : State) : (beginUnit u s).unit = u := rfl
@[simp] theorem beginUnit_irqEn (u : UnitSel) (s : State) : (beginUnit u s).irqEn = s.irqEn := rfl
@[simp] theorem beginUnit_width (u : UnitSel) (s : State) : (beginUnit u s).width = s.width := rfl
@[simp] theorem beginUnit_height (u : UnitSel) (s : State) : (beginUnit u s).height = s.height := rfl
@[simp] theorem beginUnit_inFmt (u : UnitSel) (s : State) : (beginUnit u s).inFmt = s.inFmt := rfl
@[simp] theorem beginUnit_outFmt (u : UnitSel) (s : State) : (beginUnit u s).outFmt = s.outFmt := rfl
@[simp] theorem beginUnit_inLen (u : UnitSel) (s : State) : (beginUnit u s).inLen = s.inLen := rfl
@[simp] theorem beginUnit_inPos (u : UnitSel) (s : State) : (beginUnit u s).inPos = s.inPos := rfl
@[simp] theorem beginUnit_pixCnt (u : UnitSel) (s : State) : (beginUnit u s).pixCnt = s.pixCnt := rfl
@[simp] theorem beginUnit_pxX (u : UnitSel) (s : State) : (beginUnit u s).pxX = s.pxX := rfl
@[simp] theorem beginUnit_pxY (u : UnitSel) (s : State) : (beginUnit u s).pxY = s.pxY := rfl
@[simp] theorem beginUnit_pxC (u : UnitSel) (s : State) : (beginUnit u s).pxC = s.pxC := rfl
@[simp] theorem beginUnit_pxV (u : UnitSel) (s : State) : (beginUnit u s).pxV = s.pxV := rfl
@[simp] theorem beginUnit_lzw (u : UnitSel) (s : State) : (beginUnit u s).lzw = s.lzw := rfl
@[simp] theorem beginUnit_png (u : UnitSel) (s : State) : (beginUnit u s).png = s.png := rfl
@[simp] theorem beginUnit_mem (u : UnitSel) (s : State) : (beginUnit u s).mem = s.mem := rfl
@[simp] theorem beginUnit_epoch (u : UnitSel) (s : State) : (beginUnit u s).epoch = s.epoch := rfl
@[simp] theorem beginUnit_free (u : UnitSel) (s : State) : (beginUnit u s).free = s.free := rfl
@[simp] theorem beginUnit_inbox (u : UnitSel) (s : State) : (beginUnit u s).inbox = s.inbox := rfl
@[simp] theorem beginUnit_outbox (u : UnitSel) (s : State) : (beginUnit u s).outbox = s.outbox := rfl
@[simp] theorem beginUnit_hostNext (u : UnitSel) (s : State) : (beginUnit u s).hostNext = s.hostNext := rfl

/-! ### poke -/

@[simp] theorem poke_params (s : State) (sp : Space) (i : Nat) (bytes : List Byte) : (s.poke sp i bytes).params = s.params := rfl
@[simp] theorem poke_engine (s : State) (sp : Space) (i : Nat) (bytes : List Byte) : (s.poke sp i bytes).engine = s.engine := rfl
@[simp] theorem poke_cmdErr (s : State) (sp : Space) (i : Nat) (bytes : List Byte) : (s.poke sp i bytes).cmdErr = s.cmdErr := rfl
@[simp] theorem poke_termSeen (s : State) (sp : Space) (i : Nat) (bytes : List Byte) : (s.poke sp i bytes).termSeen = s.termSeen := rfl
@[simp] theorem poke_faultCode (s : State) (sp : Space) (i : Nat) (bytes : List Byte) : (s.poke sp i bytes).faultCode = s.faultCode := rfl
@[simp] theorem poke_endReason (s : State) (sp : Space) (i : Nat) (bytes : List Byte) : (s.poke sp i bytes).endReason = s.endReason := rfl
@[simp] theorem poke_unit (s : State) (sp : Space) (i : Nat) (bytes : List Byte) : (s.poke sp i bytes).unit = s.unit := rfl
@[simp] theorem poke_irqEn (s : State) (sp : Space) (i : Nat) (bytes : List Byte) : (s.poke sp i bytes).irqEn = s.irqEn := rfl
@[simp] theorem poke_width (s : State) (sp : Space) (i : Nat) (bytes : List Byte) : (s.poke sp i bytes).width = s.width := rfl
@[simp] theorem poke_height (s : State) (sp : Space) (i : Nat) (bytes : List Byte) : (s.poke sp i bytes).height = s.height := rfl
@[simp] theorem poke_inFmt (s : State) (sp : Space) (i : Nat) (bytes : List Byte) : (s.poke sp i bytes).inFmt = s.inFmt := rfl
@[simp] theorem poke_outFmt (s : State) (sp : Space) (i : Nat) (bytes : List Byte) : (s.poke sp i bytes).outFmt = s.outFmt := rfl
@[simp] theorem poke_inLen (s : State) (sp : Space) (i : Nat) (bytes : List Byte) : (s.poke sp i bytes).inLen = s.inLen := rfl
@[simp] theorem poke_inPos (s : State) (sp : Space) (i : Nat) (bytes : List Byte) : (s.poke sp i bytes).inPos = s.inPos := rfl
@[simp] theorem poke_pixCnt (s : State) (sp : Space) (i : Nat) (bytes : List Byte) : (s.poke sp i bytes).pixCnt = s.pixCnt := rfl
@[simp] theorem poke_pxX (s : State) (sp : Space) (i : Nat) (bytes : List Byte) : (s.poke sp i bytes).pxX = s.pxX := rfl
@[simp] theorem poke_pxY (s : State) (sp : Space) (i : Nat) (bytes : List Byte) : (s.poke sp i bytes).pxY = s.pxY := rfl
@[simp] theorem poke_pxC (s : State) (sp : Space) (i : Nat) (bytes : List Byte) : (s.poke sp i bytes).pxC = s.pxC := rfl
@[simp] theorem poke_pxV (s : State) (sp : Space) (i : Nat) (bytes : List Byte) : (s.poke sp i bytes).pxV = s.pxV := rfl
@[simp] theorem poke_lzw (s : State) (sp : Space) (i : Nat) (bytes : List Byte) : (s.poke sp i bytes).lzw = s.lzw := rfl
@[simp] theorem poke_png (s : State) (sp : Space) (i : Nat) (bytes : List Byte) : (s.poke sp i bytes).png = s.png := rfl
@[simp] theorem poke_epoch (s : State) (sp : Space) (i : Nat) (bytes : List Byte) : (s.poke sp i bytes).epoch = s.epoch := rfl
@[simp] theorem poke_free (s : State) (sp : Space) (i : Nat) (bytes : List Byte) : (s.poke sp i bytes).free = s.free := rfl
@[simp] theorem poke_inbox (s : State) (sp : Space) (i : Nat) (bytes : List Byte) : (s.poke sp i bytes).inbox = s.inbox := rfl
@[simp] theorem poke_outbox (s : State) (sp : Space) (i : Nat) (bytes : List Byte) : (s.poke sp i bytes).outbox = s.outbox := rfl
@[simp] theorem poke_hostNext (s : State) (sp : Space) (i : Nat) (bytes : List Byte) : (s.poke sp i bytes).hostNext = s.hostNext := rfl

/-! ### zeroFill -/

@[simp] theorem zeroFill_params (s : State) (sp : Space) (n : Nat) : (s.zeroFill sp n).params = s.params := rfl
@[simp] theorem zeroFill_engine (s : State) (sp : Space) (n : Nat) : (s.zeroFill sp n).engine = s.engine := rfl
@[simp] theorem zeroFill_cmdErr (s : State) (sp : Space) (n : Nat) : (s.zeroFill sp n).cmdErr = s.cmdErr := rfl
@[simp] theorem zeroFill_termSeen (s : State) (sp : Space) (n : Nat) : (s.zeroFill sp n).termSeen = s.termSeen := rfl
@[simp] theorem zeroFill_faultCode (s : State) (sp : Space) (n : Nat) : (s.zeroFill sp n).faultCode = s.faultCode := rfl
@[simp] theorem zeroFill_endReason (s : State) (sp : Space) (n : Nat) : (s.zeroFill sp n).endReason = s.endReason := rfl
@[simp] theorem zeroFill_unit (s : State) (sp : Space) (n : Nat) : (s.zeroFill sp n).unit = s.unit := rfl
@[simp] theorem zeroFill_irqEn (s : State) (sp : Space) (n : Nat) : (s.zeroFill sp n).irqEn = s.irqEn := rfl
@[simp] theorem zeroFill_width (s : State) (sp : Space) (n : Nat) : (s.zeroFill sp n).width = s.width := rfl
@[simp] theorem zeroFill_height (s : State) (sp : Space) (n : Nat) : (s.zeroFill sp n).height = s.height := rfl
@[simp] theorem zeroFill_inFmt (s : State) (sp : Space) (n : Nat) : (s.zeroFill sp n).inFmt = s.inFmt := rfl
@[simp] theorem zeroFill_outFmt (s : State) (sp : Space) (n : Nat) : (s.zeroFill sp n).outFmt = s.outFmt := rfl
@[simp] theorem zeroFill_inLen (s : State) (sp : Space) (n : Nat) : (s.zeroFill sp n).inLen = s.inLen := rfl
@[simp] theorem zeroFill_inPos (s : State) (sp : Space) (n : Nat) : (s.zeroFill sp n).inPos = s.inPos := rfl
@[simp] theorem zeroFill_pixCnt (s : State) (sp : Space) (n : Nat) : (s.zeroFill sp n).pixCnt = s.pixCnt := rfl
@[simp] theorem zeroFill_pxX (s : State) (sp : Space) (n : Nat) : (s.zeroFill sp n).pxX = s.pxX := rfl
@[simp] theorem zeroFill_pxY (s : State) (sp : Space) (n : Nat) : (s.zeroFill sp n).pxY = s.pxY := rfl
@[simp] theorem zeroFill_pxC (s : State) (sp : Space) (n : Nat) : (s.zeroFill sp n).pxC = s.pxC := rfl
@[simp] theorem zeroFill_pxV (s : State) (sp : Space) (n : Nat) : (s.zeroFill sp n).pxV = s.pxV := rfl
@[simp] theorem zeroFill_lzw (s : State) (sp : Space) (n : Nat) : (s.zeroFill sp n).lzw = s.lzw := rfl
@[simp] theorem zeroFill_png (s : State) (sp : Space) (n : Nat) : (s.zeroFill sp n).png = s.png := rfl
@[simp] theorem zeroFill_epoch (s : State) (sp : Space) (n : Nat) : (s.zeroFill sp n).epoch = s.epoch := rfl
@[simp] theorem zeroFill_free (s : State) (sp : Space) (n : Nat) : (s.zeroFill sp n).free = s.free := rfl
@[simp] theorem zeroFill_inbox (s : State) (sp : Space) (n : Nat) : (s.zeroFill sp n).inbox = s.inbox := rfl
@[simp] theorem zeroFill_outbox (s : State) (sp : Space) (n : Nat) : (s.zeroFill sp n).outbox = s.outbox := rfl
@[simp] theorem zeroFill_hostNext (s : State) (sp : Space) (n : Nat) : (s.zeroFill sp n).hostNext = s.hostNext := rfl

/-! ### scramble -/

@[simp] theorem scramble_params (s : State) (sp : Space) (n : Nat) : (s.scramble sp n).params = s.params := rfl
@[simp] theorem scramble_engine (s : State) (sp : Space) (n : Nat) : (s.scramble sp n).engine = s.engine := rfl
@[simp] theorem scramble_cmdErr (s : State) (sp : Space) (n : Nat) : (s.scramble sp n).cmdErr = s.cmdErr := rfl
@[simp] theorem scramble_termSeen (s : State) (sp : Space) (n : Nat) : (s.scramble sp n).termSeen = s.termSeen := rfl
@[simp] theorem scramble_faultCode (s : State) (sp : Space) (n : Nat) : (s.scramble sp n).faultCode = s.faultCode := rfl
@[simp] theorem scramble_endReason (s : State) (sp : Space) (n : Nat) : (s.scramble sp n).endReason = s.endReason := rfl
@[simp] theorem scramble_unit (s : State) (sp : Space) (n : Nat) : (s.scramble sp n).unit = s.unit := rfl
@[simp] theorem scramble_irqEn (s : State) (sp : Space) (n : Nat) : (s.scramble sp n).irqEn = s.irqEn := rfl
@[simp] theorem scramble_width (s : State) (sp : Space) (n : Nat) : (s.scramble sp n).width = s.width := rfl
@[simp] theorem scramble_height (s : State) (sp : Space) (n : Nat) : (s.scramble sp n).height = s.height := rfl
@[simp] theorem scramble_inFmt (s : State) (sp : Space) (n : Nat) : (s.scramble sp n).inFmt = s.inFmt := rfl
@[simp] theorem scramble_outFmt (s : State) (sp : Space) (n : Nat) : (s.scramble sp n).outFmt = s.outFmt := rfl
@[simp] theorem scramble_inLen (s : State) (sp : Space) (n : Nat) : (s.scramble sp n).inLen = s.inLen := rfl
@[simp] theorem scramble_inPos (s : State) (sp : Space) (n : Nat) : (s.scramble sp n).inPos = s.inPos := rfl
@[simp] theorem scramble_pixCnt (s : State) (sp : Space) (n : Nat) : (s.scramble sp n).pixCnt = s.pixCnt := rfl
@[simp] theorem scramble_pxX (s : State) (sp : Space) (n : Nat) : (s.scramble sp n).pxX = s.pxX := rfl
@[simp] theorem scramble_pxY (s : State) (sp : Space) (n : Nat) : (s.scramble sp n).pxY = s.pxY := rfl
@[simp] theorem scramble_pxC (s : State) (sp : Space) (n : Nat) : (s.scramble sp n).pxC = s.pxC := rfl
@[simp] theorem scramble_pxV (s : State) (sp : Space) (n : Nat) : (s.scramble sp n).pxV = s.pxV := rfl
@[simp] theorem scramble_lzw (s : State) (sp : Space) (n : Nat) : (s.scramble sp n).lzw = s.lzw := rfl
@[simp] theorem scramble_png (s : State) (sp : Space) (n : Nat) : (s.scramble sp n).png = s.png := rfl
@[simp] theorem scramble_epoch (s : State) (sp : Space) (n : Nat) : (s.scramble sp n).epoch = s.epoch := rfl
@[simp] theorem scramble_free (s : State) (sp : Space) (n : Nat) : (s.scramble sp n).free = s.free + n := rfl
@[simp] theorem scramble_inbox (s : State) (sp : Space) (n : Nat) : (s.scramble sp n).inbox = s.inbox := rfl
@[simp] theorem scramble_outbox (s : State) (sp : Space) (n : Nat) : (s.scramble sp n).outbox = s.outbox := rfl
@[simp] theorem scramble_hostNext (s : State) (sp : Space) (n : Nat) : (s.scramble sp n).hostNext = s.hostNext := rfl

/-! ### respond -/

@[simp] theorem respond_params (r : BusResp) (s : State) : (respond r s).params = s.params := rfl
@[simp] theorem respond_engine (r : BusResp) (s : State) : (respond r s).engine = s.engine := rfl
@[simp] theorem respond_cmdErr (r : BusResp) (s : State) : (respond r s).cmdErr = s.cmdErr := rfl
@[simp] theorem respond_termSeen (r : BusResp) (s : State) : (respond r s).termSeen = s.termSeen := rfl
@[simp] theorem respond_faultCode (r : BusResp) (s : State) : (respond r s).faultCode = s.faultCode := rfl
@[simp] theorem respond_endReason (r : BusResp) (s : State) : (respond r s).endReason = s.endReason := rfl
@[simp] theorem respond_unit (r : BusResp) (s : State) : (respond r s).unit = s.unit := rfl
@[simp] theorem respond_irqEn (r : BusResp) (s : State) : (respond r s).irqEn = s.irqEn := rfl
@[simp] theorem respond_width (r : BusResp) (s : State) : (respond r s).width = s.width := rfl
@[simp] theorem respond_height (r : BusResp) (s : State) : (respond r s).height = s.height := rfl
@[simp] theorem respond_inFmt (r : BusResp) (s : State) : (respond r s).inFmt = s.inFmt := rfl
@[simp] theorem respond_outFmt (r : BusResp) (s : State) : (respond r s).outFmt = s.outFmt := rfl
@[simp] theorem respond_inLen (r : BusResp) (s : State) : (respond r s).inLen = s.inLen := rfl
@[simp] theorem respond_inPos (r : BusResp) (s : State) : (respond r s).inPos = s.inPos := rfl
@[simp] theorem respond_pixCnt (r : BusResp) (s : State) : (respond r s).pixCnt = s.pixCnt := rfl
@[simp] theorem respond_pxX (r : BusResp) (s : State) : (respond r s).pxX = s.pxX := rfl
@[simp] theorem respond_pxY (r : BusResp) (s : State) : (respond r s).pxY = s.pxY := rfl
@[simp] theorem respond_pxC (r : BusResp) (s : State) : (respond r s).pxC = s.pxC := rfl
@[simp] theorem respond_pxV (r : BusResp) (s : State) : (respond r s).pxV = s.pxV := rfl
@[simp] theorem respond_lzw (r : BusResp) (s : State) : (respond r s).lzw = s.lzw := rfl
@[simp] theorem respond_png (r : BusResp) (s : State) : (respond r s).png = s.png := rfl
@[simp] theorem respond_mem (r : BusResp) (s : State) : (respond r s).mem = s.mem := rfl
@[simp] theorem respond_epoch (r : BusResp) (s : State) : (respond r s).epoch = s.epoch := rfl
@[simp] theorem respond_free (r : BusResp) (s : State) : (respond r s).free = s.free := rfl
@[simp] theorem respond_inbox (r : BusResp) (s : State) : (respond r s).inbox = s.inbox := rfl
@[simp] theorem respond_outbox (r : BusResp) (s : State) : (respond r s).outbox = r :: s.outbox := rfl
@[simp] theorem respond_hostNext (r : BusResp) (s : State) : (respond r s).hostNext = s.hostNext := rfl

/-! ### tick -/

@[simp] theorem tick_params (s : State) : (tick s).params = s.params := rfl
@[simp] theorem tick_engine (s : State) : (tick s).engine = s.engine := rfl
@[simp] theorem tick_cmdErr (s : State) : (tick s).cmdErr = s.cmdErr := rfl
@[simp] theorem tick_termSeen (s : State) : (tick s).termSeen = s.termSeen := rfl
@[simp] theorem tick_faultCode (s : State) : (tick s).faultCode = s.faultCode := rfl
@[simp] theorem tick_endReason (s : State) : (tick s).endReason = s.endReason := rfl
@[simp] theorem tick_unit (s : State) : (tick s).unit = s.unit := rfl
@[simp] theorem tick_irqEn (s : State) : (tick s).irqEn = s.irqEn := rfl
@[simp] theorem tick_width (s : State) : (tick s).width = s.width := rfl
@[simp] theorem tick_height (s : State) : (tick s).height = s.height := rfl
@[simp] theorem tick_inFmt (s : State) : (tick s).inFmt = s.inFmt := rfl
@[simp] theorem tick_outFmt (s : State) : (tick s).outFmt = s.outFmt := rfl
@[simp] theorem tick_inLen (s : State) : (tick s).inLen = s.inLen := rfl
@[simp] theorem tick_inPos (s : State) : (tick s).inPos = s.inPos := rfl
@[simp] theorem tick_pixCnt (s : State) : (tick s).pixCnt = s.pixCnt := rfl
@[simp] theorem tick_pxX (s : State) : (tick s).pxX = s.pxX := rfl
@[simp] theorem tick_pxY (s : State) : (tick s).pxY = s.pxY := rfl
@[simp] theorem tick_pxC (s : State) : (tick s).pxC = s.pxC := rfl
@[simp] theorem tick_pxV (s : State) : (tick s).pxV = s.pxV := rfl
@[simp] theorem tick_lzw (s : State) : (tick s).lzw = s.lzw := rfl
@[simp] theorem tick_png (s : State) : (tick s).png = s.png := rfl
@[simp] theorem tick_mem (s : State) : (tick s).mem = s.mem := rfl
@[simp] theorem tick_epoch (s : State) : (tick s).epoch = s.epoch := rfl
@[simp] theorem tick_free (s : State) : (tick s).free = s.free + 1 := rfl
@[simp] theorem tick_inbox (s : State) : (tick s).inbox = s.inbox := rfl
@[simp] theorem tick_outbox (s : State) : (tick s).outbox = s.outbox := rfl
@[simp] theorem tick_hostNext (s : State) : (tick s).hostNext = Config.hostFirst s.free := rfl

/-! ### resetRegs -/

@[simp] theorem resetRegs_params (s : State) : (resetRegs s).params = s.params := rfl
@[simp] theorem resetRegs_engine (s : State) : (resetRegs s).engine = .idle := rfl
@[simp] theorem resetRegs_cmdErr (s : State) : (resetRegs s).cmdErr = false := rfl
@[simp] theorem resetRegs_termSeen (s : State) : (resetRegs s).termSeen = false := rfl
@[simp] theorem resetRegs_faultCode (s : State) : (resetRegs s).faultCode = .noFault := rfl
@[simp] theorem resetRegs_endReason (s : State) : (resetRegs s).endReason = .noReason := rfl
@[simp] theorem resetRegs_unit (s : State) : (resetRegs s).unit = .noUnit := rfl
@[simp] theorem resetRegs_irqEn (s : State) : (resetRegs s).irqEn = false := rfl
@[simp] theorem resetRegs_width (s : State) : (resetRegs s).width = 0 := rfl
@[simp] theorem resetRegs_height (s : State) : (resetRegs s).height = 0 := rfl
@[simp] theorem resetRegs_inFmt (s : State) : (resetRegs s).inFmt = ⟨0, 0, false⟩ := rfl
@[simp] theorem resetRegs_outFmt (s : State) : (resetRegs s).outFmt = ⟨0, 0, false⟩ := rfl
@[simp] theorem resetRegs_inLen (s : State) : (resetRegs s).inLen = 0 := rfl
@[simp] theorem resetRegs_inPos (s : State) : (resetRegs s).inPos = 0 := rfl
@[simp] theorem resetRegs_pixCnt (s : State) : (resetRegs s).pixCnt = 0 := rfl
@[simp] theorem resetRegs_pxX (s : State) : (resetRegs s).pxX = 0 := rfl
@[simp] theorem resetRegs_pxY (s : State) : (resetRegs s).pxY = 0 := rfl
@[simp] theorem resetRegs_pxC (s : State) : (resetRegs s).pxC = 0 := rfl
@[simp] theorem resetRegs_pxV (s : State) : (resetRegs s).pxV = 0 := rfl
@[simp] theorem resetRegs_lzw (s : State) : (resetRegs s).lzw = unspecifiedLzw s.free := rfl
@[simp] theorem resetRegs_png (s : State) : (resetRegs s).png = unspecifiedPng s.free := rfl
@[simp] theorem resetRegs_mem (s : State) : (resetRegs s).mem = s.mem := rfl
@[simp] theorem resetRegs_epoch (s : State) : (resetRegs s).epoch = s.epoch := rfl
@[simp] theorem resetRegs_free (s : State) : (resetRegs s).free = s.free + 8 := rfl
@[simp] theorem resetRegs_inbox (s : State) : (resetRegs s).inbox = s.inbox := rfl
@[simp] theorem resetRegs_outbox (s : State) : (resetRegs s).outbox = s.outbox := rfl
@[simp] theorem resetRegs_hostNext (s : State) : (resetRegs s).hostNext = s.hostNext := rfl

/-! ### Placing a pixel -/

/-- Placing a pixel changes the memory and nothing else. -/
theorem setPixel_eq (s : State) (x y c v : Nat) :
    setPixel s x y c v = { s with mem := (setPixel s x y c v).mem } := by
  unfold setPixel
  dsimp only
  split
  · rfl
  · split <;> rfl

@[simp] theorem setPixel_params (s : State) (x y c v : Nat) : (setPixel s x y c v).params = s.params := by
  rw [setPixel_eq]
@[simp] theorem setPixel_engine (s : State) (x y c v : Nat) : (setPixel s x y c v).engine = s.engine := by
  rw [setPixel_eq]
@[simp] theorem setPixel_cmdErr (s : State) (x y c v : Nat) : (setPixel s x y c v).cmdErr = s.cmdErr := by
  rw [setPixel_eq]
@[simp] theorem setPixel_termSeen (s : State) (x y c v : Nat) : (setPixel s x y c v).termSeen = s.termSeen := by
  rw [setPixel_eq]
@[simp] theorem setPixel_faultCode (s : State) (x y c v : Nat) : (setPixel s x y c v).faultCode = s.faultCode := by
  rw [setPixel_eq]
@[simp] theorem setPixel_endReason (s : State) (x y c v : Nat) : (setPixel s x y c v).endReason = s.endReason := by
  rw [setPixel_eq]
@[simp] theorem setPixel_unit (s : State) (x y c v : Nat) : (setPixel s x y c v).unit = s.unit := by
  rw [setPixel_eq]
@[simp] theorem setPixel_irqEn (s : State) (x y c v : Nat) : (setPixel s x y c v).irqEn = s.irqEn := by
  rw [setPixel_eq]
@[simp] theorem setPixel_width (s : State) (x y c v : Nat) : (setPixel s x y c v).width = s.width := by
  rw [setPixel_eq]
@[simp] theorem setPixel_height (s : State) (x y c v : Nat) : (setPixel s x y c v).height = s.height := by
  rw [setPixel_eq]
@[simp] theorem setPixel_inFmt (s : State) (x y c v : Nat) : (setPixel s x y c v).inFmt = s.inFmt := by
  rw [setPixel_eq]
@[simp] theorem setPixel_outFmt (s : State) (x y c v : Nat) : (setPixel s x y c v).outFmt = s.outFmt := by
  rw [setPixel_eq]
@[simp] theorem setPixel_inLen (s : State) (x y c v : Nat) : (setPixel s x y c v).inLen = s.inLen := by
  rw [setPixel_eq]
@[simp] theorem setPixel_inPos (s : State) (x y c v : Nat) : (setPixel s x y c v).inPos = s.inPos := by
  rw [setPixel_eq]
@[simp] theorem setPixel_pixCnt (s : State) (x y c v : Nat) : (setPixel s x y c v).pixCnt = s.pixCnt := by
  rw [setPixel_eq]
@[simp] theorem setPixel_pxX (s : State) (x y c v : Nat) : (setPixel s x y c v).pxX = s.pxX := by
  rw [setPixel_eq]
@[simp] theorem setPixel_pxY (s : State) (x y c v : Nat) : (setPixel s x y c v).pxY = s.pxY := by
  rw [setPixel_eq]
@[simp] theorem setPixel_pxC (s : State) (x y c v : Nat) : (setPixel s x y c v).pxC = s.pxC := by
  rw [setPixel_eq]
@[simp] theorem setPixel_pxV (s : State) (x y c v : Nat) : (setPixel s x y c v).pxV = s.pxV := by
  rw [setPixel_eq]
@[simp] theorem setPixel_lzw (s : State) (x y c v : Nat) : (setPixel s x y c v).lzw = s.lzw := by
  rw [setPixel_eq]
@[simp] theorem setPixel_png (s : State) (x y c v : Nat) : (setPixel s x y c v).png = s.png := by
  rw [setPixel_eq]
@[simp] theorem setPixel_epoch (s : State) (x y c v : Nat) : (setPixel s x y c v).epoch = s.epoch := by
  rw [setPixel_eq]
@[simp] theorem setPixel_free (s : State) (x y c v : Nat) : (setPixel s x y c v).free = s.free := by
  rw [setPixel_eq]
@[simp] theorem setPixel_inbox (s : State) (x y c v : Nat) : (setPixel s x y c v).inbox = s.inbox := by
  rw [setPixel_eq]
@[simp] theorem setPixel_outbox (s : State) (x y c v : Nat) : (setPixel s x y c v).outbox = s.outbox := by
  rw [setPixel_eq]
@[simp] theorem setPixel_hostNext (s : State) (x y c v : Nat) : (setPixel s x y c v).hostNext = s.hostNext := by
  rw [setPixel_eq]

/-! ### Outcomes -/

@[simp] theorem tickResult_next (s : State) : tickResult (.next s) = .next (tick s) := rfl
@[simp] theorem tickResult_fault (f : Fault) : tickResult (.fault f) = .fault f := rfl
@[simp] theorem tickResult_refused (r : Refusal) : tickResult (.refused r) = .refused r := rfl

/-- A tick answers a next state only after one. -/
theorem tickResult_eq_next (r : Result) (t : State) : tickResult r = .next t ↔ ∃ u, r = .next u ∧ t = tick u := by
  cases r <;> simp [tickResult, eq_comm]

/-- What a step can do: it executes the encoded word it read, does other work, waits, or is stuck. -/
theorem step_cases (s t : State) (h : step s = .next t) :
    (∃ e s1 u, fetch s = .word e s1 ∧ exec (decode s.lzw.ctx e) s1 = .next u ∧ t = tick u) ∨
      (∃ u, fetch s = .work u ∧ t = tick u) ∨ (fetch s = .wait ∧ t = s) := by
  unfold step at h
  split at h
  · rename_i e s1 hf
    obtain ⟨u, hu, ht⟩ := (tickResult_eq_next _ _).1 h
    exact .inl ⟨e, s1, u, hf, hu, ht⟩
  · rename_i u hf
    exact .inr (.inl ⟨u, hf, by simpa using h.symm⟩)
  · rename_i hf
    exact .inr (.inr ⟨hf, by simpa using h.symm⟩)
  · simp at h

end Sys2Proof.Machine
end

