-- ==== Sys2Proof/Laws/Ops.lean ====
section
/-! SUPPORT. One lemma for each shared operation that says once what it does: the checks, reading input, stopping a unit,
opening a sub-block, host accesses, the passes and rows of the PNG unit. -/

namespace Sys2Proof.Machine

/-! ### Checks -/

theorem legalBpc_iff (b : Nat) : legalBpc b = true ↔ b ∈ [1, 2, 4, 8, 16] := by
  simp [legalBpc, or_assoc]

/-- `geomOK` is the five conditions of 41_pixel_buffer.md R131. -/
theorem State.geomOK_iff (s : State) : s.geomOK = true ↔ GeomLegal s := by
  have hc : (1 ≤ s.outFmt.ncomp.toNat ∧ s.outFmt.ncomp.toNat ≤ 4) ↔ s.outFmt.ncomp.toNat ∈ [1, 2, 3, 4] := by
    simp only [List.mem_cons, List.not_mem_nil, or_false]; omega
  unfold State.geomOK
  simp only [Bool.and_eq_true, decide_eq_true_eq, Bool.or_eq_true, Bool.not_eq_true', legalBpc_iff, hc]
  constructor
  · rintro ⟨⟨⟨⟨h1, h2⟩, h3⟩, h4⟩, h5⟩
    exact ⟨h1, h2, h3, h4, fun hm => h5.resolve_left (by simp [hm])⟩
  · rintro ⟨h1, h2, h3, h4, h5⟩
    refine ⟨⟨⟨⟨h1, h2⟩, h3⟩, h4⟩, ?_⟩
    cases hm : s.outFmt.mask
    · exact .inl rfl
    · exact .inr (h5 hm)

theorem State.pxInBounds_iff (s : State) :
    s.pxInBounds = true ↔ InBounds s s.pxX.toNat s.pxY.toNat s.pxC.toNat := by
  simp [State.pxInBounds, InBounds, and_assoc]

/-- `lzwCheck` is the four conditions of 42_lzw.md R161. -/
theorem State.lzwCheck_iff (s : State) : s.lzwCheck = true ↔ LzwLegal s := by
  have hb : (((s.inFmt.bitDepth.toNat = 1 ∨ s.inFmt.bitDepth.toNat = 2) ∨ s.inFmt.bitDepth.toNat = 4) ∨
      s.inFmt.bitDepth.toNat = 8) ↔ s.inFmt.bitDepth.toNat ∈ [1, 2, 4, 8] := by simp [or_assoc]
  unfold State.lzwCheck
  simp only [Bool.and_eq_true, decide_eq_true_eq, Bool.or_eq_true, beq_iff_eq, hb]
  exact ⟨fun ⟨⟨⟨h1, h2⟩, h3⟩, h4⟩ => ⟨h1, h2, h3, h4⟩, fun ⟨h1, h2, h3, h4⟩ => ⟨⟨⟨h1, h2⟩, h3⟩, h4⟩⟩

/-- The legal pairs are the rows of the table of 43_png_unfilter.md R211, each with its bands. -/
theorem pngPair_iff (ct bd bands : Nat) : pngPair ct bd = true ∧ bands = pngBands ct ↔ (ct, bd, bands) ∈ pngTable := by
  by_cases h0 : ct = 0
  · subst h0; simp [pngPair, pngBands, pngTable]; omega
  by_cases h2 : ct = 2
  · subst h2; simp [pngPair, pngBands, pngTable]; omega
  by_cases h3 : ct = 3
  · subst h3; simp [pngPair, pngBands, pngTable]; omega
  by_cases h4 : ct = 4
  · subst h4; simp [pngPair, pngBands, pngTable]; omega
  by_cases h6 : ct = 6
  · subst h6; simp [pngPair, pngBands, pngTable]; omega
  simp [pngPair, pngBands, pngTable, h0, h2, h3, h4, h6]

theorem pngAlpha_iff (ct : Nat) : pngAlpha ct = true ↔ ct ∈ [4, 6] := by simp [pngAlpha]

/-- The output components of a legal pair. -/
theorem pngComps (ct bands : Nat) (hb : bands = pngBands ct) :
    pngBands ct - (pngAlpha ct).toNat = if ct ∈ [4, 6] then bands - 1 else bands := by
  by_cases h : ct ∈ [4, 6]
  · rw [if_pos h, (pngAlpha_iff ct).2 h, hb]; rfl
  · have : pngAlpha ct = false := by
      cases ha : pngAlpha ct
      · rfl
      · exact absurd ((pngAlpha_iff ct).1 ha) h
    rw [if_neg h, this, hb]; rfl

/-- `pngCheck` is the six conditions of 43_png_unfilter.md R211, for the bands of the color type. -/
theorem State.pngCheck_iff (s : State) : s.pngCheck = true ↔ PngLegal s (pngBands s.inFmt.colorType.toNat) := by
  have hc := pngComps s.inFmt.colorType.toNat _ rfl
  unfold State.pngCheck
  simp only [Bool.and_eq_true, decide_eq_true_eq, Bool.or_eq_true, Bool.not_eq_true', hc]
  constructor
  · rintro ⟨⟨⟨⟨⟨h1, h2⟩, h3⟩, h4⟩, h5⟩, h6⟩
    refine ⟨h1, (pngPair_iff _ _ _).1 ⟨h2, rfl⟩, h3, h4, fun ha => h5.resolve_left ?_, h6⟩
    simp [(pngAlpha_iff _).2 ha]
  · rintro ⟨h1, h2, h3, h4, h5, h6⟩
    refine ⟨⟨⟨⟨⟨h1, ((pngPair_iff _ _ _).2 h2).1⟩, h3⟩, h4⟩, ?_⟩, h6⟩
    cases ha : pngAlpha s.inFmt.colorType.toNat
    · exact .inl rfl
    · exact .inr (h5 ((pngAlpha_iff _).1 ha))

/-! ### Reading input -/

/-- Reading a byte answers the byte at IN_POS and advances IN_POS, when IN_POS is below IN_LEN (42_lzw.md R162). -/
theorem readByte?_some (s t : State) (b : Byte) :
    readByte? s = some (b, t) ↔
      s.inPos.toNat < s.inLen.toNat ∧ b = s.byteAt (0x10000000 + s.inPos.toNat) ∧ t = { s with inPos := s.inPos + 1 } := by
  unfold readByte?
  split
  · simp; omega
  · simp only [Option.some.injEq, Prod.mk.injEq, State.peek, Space.base]
    constructor
    · rintro ⟨rfl, rfl⟩; exact ⟨by omega, rfl, rfl⟩
    · rintro ⟨_, rfl, rfl⟩; exact ⟨rfl, rfl⟩

/-- Reading a byte answers nothing exactly when the input is used up. -/
theorem readByte?_none (s : State) : readByte? s = none ↔ s.inLen.toNat ≤ s.inPos.toNat := by
  unfold readByte?
  split <;> simp <;> omega

/-- Opening a sub-block sets the count, or faults when the block is cut short (42_lzw.md R165). -/
theorem openSubBlock_cases (len : Nat) (s t : State) (h : openSubBlock len s = .next t) :
    (s.inPos.toNat + len ≤ s.inLen.toNat ∧ t = { s with lzw := { s.lzw with count := BitVec.ofNat 8 len } }) ∨
      (s.inLen.toNat < s.inPos.toNat + len ∧ t = raise .prematureEndOfStream s) := by
  unfold openSubBlock at h
  split at h
  · rename_i hl; exact .inr ⟨hl, by simpa using h.symm⟩
  · rename_i hl; exact .inl ⟨by omega, by simpa using h.symm⟩

/-- What reading the header can do (42_lzw.md R164). -/
theorem lzwHeader_cases (s : State) :
    (s.inLen.toNat ≤ s.inPos.toNat ∧ lzwHeader s = raise .prematureEndOfStream s) ∨
      ∃ ds, ds = (s.byteAt (0x10000000 + s.inPos.toNat)).toNat ∧ s.inPos.toNat < s.inLen.toNat ∧
        (((ds < 2 ∨ 8 < ds) ∧ lzwHeader s = raise .corruptBlock { s with inPos := s.inPos + 1 }) ∨
          (2 ≤ ds ∧ ds ≤ 8 ∧
            lzwHeader s = { s with inPos := s.inPos + 1, lzw := lzwOpen ds s.free s.lzw, free := s.free + 1 })) := by
  unfold lzwHeader
  cases hr : readByte? s with
  | none => exact .inl ⟨(readByte?_none s).1 hr, rfl⟩
  | some p =>
    obtain ⟨b, s1⟩ := p
    obtain ⟨hlt, rfl, rfl⟩ := (readByte?_some s s1 b).1 hr
    refine .inr ⟨_, rfl, hlt, ?_⟩
    dsimp only
    split
    · rename_i h; exact .inl ⟨by simpa using h, rfl⟩
    · rename_i h
      simp only [Bool.or_eq_true, decide_eq_true_eq] at h
      exact .inr ⟨by omega, by omega, rfl⟩

/-! ### Stopping a unit -/

/-- Stopping a unit changes the buffers and draws free values, and changes nothing else. -/
theorem scrambleOutput_eq (s : State) :
    scrambleOutput s = { s with mem := (scrambleOutput s).mem, free := (scrambleOutput s).free } := by
  unfold scrambleOutput
  split <;> rfl

/-- Stopping a unit leaves every byte outside the used output regions. -/
theorem byteAt_scrambleOutput (s : State) (a : Nat) (ho : ¬ InUsedOut s a) (hm : ¬ InUsedMask s a) :
    (scrambleOutput s).byteAt a = s.byteAt a := by
  unfold scrambleOutput
  split
  · rename_i hmask
    rw [State.byteAt_scramble_outside _ .maskbuf s.usedMask a fun h => hm ⟨hmask, h⟩]
    exact State.byteAt_scramble_outside s .outbuf s.usedOut a ho
  · exact State.byteAt_scramble_outside s .outbuf s.usedOut a ho

/-! ### Host accesses -/

/-- What an access reaches. -/
theorem busTarget_cases (p : Params) (addr bits : Nat) (g : Target) (h : busTarget p addr bits = some g) :
    (bits = 32 ∧ addr % 4 = 0 ∧ addr ≤ 0x3C ∧ g = .reg addr) ∨
      ∃ sp i, bits = 8 ∧ g = .cell sp i ∧ addr = sp.base + i ∧ i < windowSize p sp := by
  have hw : ∀ sp, windowAt p addr sp = some g → ∃ i, g = .cell sp i ∧ addr = sp.base + i ∧ i < windowSize p sp := by
    intro sp hs
    unfold windowAt at hs
    split at hs
    · rename_i hc
      simp only [Bool.and_eq_true, decide_eq_true_eq] at hc
      exact ⟨addr - sp.base, by simpa using hs.symm, by omega, hc.2⟩
    · simp at hs
  unfold busTarget at h
  split at h
  · rename_i hb
    split at h
    · rename_i hc
      simp only [Bool.and_eq_true, decide_eq_true_eq] at hc
      exact .inl ⟨hb, hc.1, hc.2, by simpa using h.symm⟩
    · simp at h
  · split at h
    · rename_i hb
      have hs : ∃ sp, windowAt p addr sp = some g := by
        cases h1 : windowAt p addr .inbuf with
        | some g1 => exact ⟨.inbuf, by rw [h1]; simpa [h1] using h⟩
        | none =>
          cases h2 : windowAt p addr .outbuf with
          | some g2 => exact ⟨.outbuf, by rw [h2]; simpa [h1, h2] using h⟩
          | none => exact ⟨.maskbuf, by simpa [h1, h2] using h⟩
      obtain ⟨sp, hs⟩ := hs
      obtain ⟨i, h1, h2, h3⟩ := hw sp hs
      exact .inr ⟨sp, i, hb, h1, h2, h3⟩
    · simp at h

/-- What a host access can do: answer without changing anything else, set CMDERR, write one register, or write one byte. -/
theorem busAccess_cases (op : BusOp) (s : State) :
    ∃ r t, busAccess op s = respond r t ∧
      (t = s ∨ (s.isBusy = true ∧ t = refuse s) ∨
        (∃ offset, (s.isBusy = true → heldWhileBusy offset = false) ∧ t = storeReg s offset op.data) ∨
        (s.isBusy = false ∧ ∃ sp i, i < windowSize s.params sp ∧ t = s.poke sp i [op.data.setWidth 8])) := by
  unfold busAccess
  cases ht : busTarget s.params op.addr.toNat op.bits with
  | none => exact ⟨_, s, rfl, .inl rfl⟩
  | some g =>
    have hc := busTarget_cases _ _ _ _ ht
    cases hw : op.write with
    | false => cases g <;> exact ⟨_, s, rfl, .inl rfl⟩
    | true =>
      cases g with
      | reg offset =>
        refine ⟨_, _, rfl, ?_⟩
        unfold writeReg
        cases hb : s.isBusy <;> cases hh : heldWhileBusy offset <;> simp [*]
        · exact .inr (.inl ⟨offset, rfl⟩)
        · exact .inr (.inl ⟨offset, rfl⟩)
        · exact .inr (.inr ⟨offset, hh, rfl⟩)
      | cell sp i =>
        have hi : i < windowSize s.params sp := by
          rcases hc with ⟨_, _, _, h⟩ | ⟨sp', i', _, h, _, h2⟩
          · simp at h
          · cases h; exact h2
        refine ⟨_, _, rfl, ?_⟩
        unfold writeCell
        cases hb : s.isBusy
        · exact .inr (.inr (.inr ⟨rfl, sp, i, hi, by simp⟩))
        · exact .inr (.inl ⟨rfl, by simp⟩)

/-! ### Passes -/

/-- The pass found is the first from `pass` on that is not empty. -/
theorem findPass_some (il : Bool) (w h : Nat) : ∀ (fuel pass p : Nat), findPass il w h fuel pass = some p →
    pass ≤ p ∧ p ≤ lastPass il ∧ passWidthOf il w p ≠ 0 ∧ passHeightOf il h p ≠ 0 ∧
      ∀ q, pass ≤ q → q < p → passWidthOf il w q = 0 ∨ passHeightOf il h q = 0
  | 0, _, _, hf => by simp [findPass] at hf
  | fuel + 1, pass, p, hf => by
    unfold findPass at hf
    split at hf
    · simp at hf
    · rename_i hl
      split at hf
      · rename_i he
        simp only [Bool.or_eq_true, decide_eq_true_eq] at he
        obtain ⟨h1, h2, h3, h4, h5⟩ := findPass_some il w h fuel (pass + 1) p hf
        refine ⟨by omega, h2, h3, h4, fun q hq1 hq2 => ?_⟩
        rcases Nat.eq_or_lt_of_le hq1 with rfl | hq
        · exact he
        · exact h5 q hq hq2
      · rename_i he
        simp only [Bool.or_eq_true, decide_eq_true_eq, not_or] at he
        cases hf
        exact ⟨Nat.le_refl _, by omega, he.1, he.2, fun q h1 h2 => by omega⟩

/-- No pass is found when every pass from `pass` on is empty, and with enough fuel only then. -/
theorem findPass_none (il : Bool) (w h : Nat) : ∀ (fuel pass : Nat), findPass il w h fuel pass = none →
    lastPass il < pass + fuel → ∀ q, pass ≤ q → q ≤ lastPass il → passWidthOf il w q = 0 ∨ passHeightOf il h q = 0
  | 0, pass, _, hl, q, h1, h2 => by omega
  | fuel + 1, pass, hf, hl, q, h1, h2 => by
    unfold findPass at hf
    split at hf
    · omega
    · split at hf
      · rename_i he
        simp only [Bool.or_eq_true, decide_eq_true_eq] at he
        rcases Nat.eq_or_lt_of_le h1 with rfl | hq
        · exact he
        · exact findPass_none il w h fuel (pass + 1) hf (by omega) q hq h2
      · simp at hf

/-- Going on with the passes either starts the first non-empty one or ends the decode. -/
theorem enterPass_cases (pass : Nat) (s : State) :
    (∃ p, findPass s.inFmt.interlace s.width.toNat s.height.toNat 7 pass = some p ∧ enterPass pass s = beginPass p s) ∨
      (findPass s.inFmt.interlace s.width.toNat s.height.toNat 7 pass = none ∧ enterPass pass s = finish .rowsDone s) := by
  unfold enterPass
  split
  · rename_i h; exact .inr ⟨h, rfl⟩
  · rename_i p h; exact .inl ⟨p, h, rfl⟩

/-- The start of a pass changes the PNG unit and nothing else. -/
theorem beginPass_eq (p : Nat) (s : State) : beginPass p s = { s with png := (beginPass p s).png } := rfl

/-- Going on after a row changes the PNG unit, and the state and end reason when the decode ends. -/
theorem advanceRow_eq (s : State) :
    advanceRow s = { s with
      engine := (advanceRow s).engine
      endReason := (advanceRow s).endReason
      png := (advanceRow s).png } := by
  unfold advanceRow
  split
  · rfl
  · rcases enterPass_cases (s.png.pass.toNat + 1) s with ⟨p, -, h⟩ | ⟨-, h⟩ <;> rw [h] <;> rfl

/-! ### Rows -/

/-- Unfiltering keeps what is already reconstructed. -/
theorem unfilterFrom_append (pred : Predictor) (bpp : Nat) (prior : List Byte) :
    ∀ (raw before : List Byte), ∃ tail, unfilterFrom pred bpp prior before raw = before ++ tail ∧ tail.length = raw.length
  | [], before => ⟨[], by simp [unfilterFrom]⟩
  | x :: raw, before => by
    obtain ⟨tail, h1, h2⟩ := unfilterFrom_append pred bpp prior raw
      (before ++ [BitVec.ofNat 8 (x.toNat + predictAt pred bpp prior before)])
    exact ⟨_ :: tail, by rw [unfilterFrom, h1, List.append_assoc]; rfl, by simp [h2]⟩

@[simp] theorem unfilterRow_length (pred : Predictor) (bpp : Nat) (prior raw : List Byte) :
    (unfilterRow pred bpp prior raw).length = raw.length := by
  obtain ⟨tail, h1, h2⟩ := unfilterFrom_append pred bpp prior raw []
  rw [unfilterRow, h1]; simpa using h2

/-- Each byte appended is the raw byte plus the prediction from the bytes before it. -/
theorem unfilterFrom_getD (pred : Predictor) (bpp : Nat) (prior : List Byte) :
    ∀ (raw before : List Byte) (k : Nat), k < raw.length →
      (unfilterFrom pred bpp prior before raw).getD (before.length + k) 0 =
        BitVec.ofNat 8 ((raw.getD k 0).toNat +
          predictAt pred bpp prior ((unfilterFrom pred bpp prior before raw).take (before.length + k)))
  | [], _, _, hk => by simp at hk
  | x :: raw, before, k, hk => by
    rw [unfilterFrom]
    cases k with
    | zero =>
      obtain ⟨tail, h1, -⟩ := unfilterFrom_append pred bpp prior raw
        (before ++ [BitVec.ofNat 8 (x.toNat + predictAt pred bpp prior before)])
      rw [h1]
      simp
    | succ k =>
      have ih := unfilterFrom_getD pred bpp prior raw
        (before ++ [BitVec.ofNat 8 (x.toNat + predictAt pred bpp prior before)]) k (by simpa using hk)
      simp only [List.length_append, List.length_singleton] at ih
      have he : before.length + 1 + k = before.length + (k + 1) := by omega
      rw [he] at ih
      rw [ih]
      simp

/-- Byte `k` of an unfiltered row (43_png_unfilter.md R225). -/
theorem unfilterRow_getD (pred : Predictor) (bpp : Nat) (prior raw : List Byte) (k : Nat) (hk : k < raw.length) :
    (unfilterRow pred bpp prior raw).getD k 0 =
      BitVec.ofNat 8 ((raw.getD k 0).toNat +
        predictAt pred bpp prior ((unfilterRow pred bpp prior raw).take k)) := by
  have h := unfilterFrom_getD pred bpp prior raw [] k hk
  simpa [unfilterRow] using h

/-- Placing a sample changes the memory and nothing else. -/
theorem placeSample_eq (row : List Byte) (x y sx : Nat) (s : State) (k : Nat) :
    placeSample row x y sx s k = { s with mem := (placeSample row x y sx s k).mem } := by
  unfold placeSample
  dsimp only
  split
  · rfl
  · rw [setPixel_eq]

/-- Placing the samples of a pixel changes the memory and nothing else. -/
theorem placeSamples_eq (row : List Byte) (x y sx : Nat) (ks : List Nat) (s : State) :
    ks.foldl (placeSample row x y sx) s = { s with mem := (ks.foldl (placeSample row x y sx) s).mem } := by
  induction ks generalizing s with
  | nil => rfl
  | cons k ks ih =>
    rw [List.foldl_cons, ih, placeSample_eq]

/-- Placing a pixel of a row changes the memory and counts one pixel. -/
theorem placePixel_eq (row : List Byte) (s : State) (sx : Nat) :
    placePixel row s sx = { s with mem := (placePixel row s sx).mem, pixCnt := s.pixCnt + 1 } := by
  unfold placePixel
  dsimp only
  rw [placeSamples_eq]

/-- Placing pixels of a row changes the memory and counts them. -/
theorem placePixels_eq (row : List Byte) (xs : List Nat) (s : State) :
    xs.foldl (placePixel row) s =
      { s with mem := (xs.foldl (placePixel row) s).mem, pixCnt := s.pixCnt + BitVec.ofNat 32 xs.length } := by
  induction xs generalizing s with
  | nil => simp
  | cons x xs ih =>
    rw [List.foldl_cons, ih, placePixel_eq]
    simp only [List.length_cons, State.mk.injEq, true_and, and_true]
    rw [BitVec.add_assoc]
    congr 1
    rw [Nat.add_comm, BitVec.ofNat_add]
    rfl

/-- Placing a row changes the memory and counts the pixels of the pass's width. -/
theorem placeRow_eq (row : List Byte) (s : State) :
    placeRow row s = { s with mem := (placeRow row s).mem, pixCnt := s.pixCnt + s.png.passWidth } := by
  unfold placeRow
  rw [placePixels_eq]
  simp

/-- Placing a sample keeps the canonical form. -/
theorem placeSample_wf (row : List Byte) (x y sx : Nat) (s : State) (k : Nat) (h : Memory.wf s.mem) :
    Memory.wf (placeSample row x y sx s k).mem := by
  unfold placeSample
  dsimp only
  split
  · exact State.poke_wf _ _ _ _ h
  · exact setPixel_wf _ _ _ _ _ h

/-- Placing a row keeps the canonical form. -/
theorem placeRow_wf (row : List Byte) (s : State) (h : Memory.wf s.mem) : Memory.wf (placeRow row s).mem := by
  have hs : ∀ (ks : List Nat) (x y sx : Nat) (u : State), Memory.wf u.mem →
      Memory.wf (ks.foldl (placeSample row x y sx) u).mem := by
    intro ks x y sx
    induction ks with
    | nil => exact fun _ hu => hu
    | cons k ks ih => exact fun u hu => ih _ (placeSample_wf _ _ _ _ _ _ hu)
  have hp : ∀ (xs : List Nat) (u : State), Memory.wf u.mem → Memory.wf (xs.foldl (placePixel row) u).mem := by
    intro xs
    induction xs with
    | nil => exact fun _ hu => hu
    | cons x xs ih => exact fun u hu => ih _ (hs _ _ _ _ _ hu)
  exact hp _ _ h

/-- Popping a pixel keeps the canonical form. -/
theorem popPixel_wf (s : State) (h : Memory.wf s.mem) : Memory.wf (popPixel s).mem := setPixel_wf _ _ _ _ _ h

end Sys2Proof.Machine
end

