-- ==== Sys2Proof/Laws/PerInstr.lean ====
section
/-! SUPPORT. One law for each instruction as syntax: its encoded word lies in its row of spec/opcode_table.json. -/

set_option Elab.async false

namespace Sys2Proof.Laws

/-- A word whose highest set bit is `k` keeps exactly that bit under the mask of the bits from `k` up. -/
theorem highest_bit_masked (w k : Nat) (h : k < w) (low : BitVec k) :
    (BitVec.twoPow w k ||| low.setWidth w) &&& (BitVec.allOnes w <<< k) = BitVec.twoPow w k := by
  ext i hi
  simp only [BitVec.getElem_and, BitVec.getElem_or, BitVec.getElem_twoPow, BitVec.getElem_setWidth,
    BitVec.getElem_shiftLeft, BitVec.getElem_allOnes]
  by_cases h1 : i < k
  · have h2 : i ≠ k := by omega
    simp [h1, h2]
  · by_cases h3 : i = k
    · subst h3; simp
    · have h4 : low.getLsbD i = false := BitVec.getLsbD_of_ge _ _ (by omega)
      simp [h1, h3, h4]

/-- The same on numbers. -/
theorem highest_bit_row (w k m v : Nat) (h : k < w) (low : BitVec k) (x : BitVec w) (hx : x = BitVec.twoPow w k)
    (hm : (BitVec.allOnes w <<< k).toNat = m) (hv : (BitVec.twoPow w k).toNat = v) :
    ((x ||| low.setWidth w).toNat &&& m) = v := by
  subst hx
  rw [← hm, ← hv, ← BitVec.toNat_and, highest_bit_masked w k h low]

/-- An instruction's encoded word lies in its row. -/
def InRow.Statement (i : Instr) : Prop := i.row.holds (encode i) = true

theorem InRow.nop : InRow.Statement .nop := by unfold InRow.Statement; decide
theorem InRow.reset : InRow.Statement .reset := by unfold InRow.Statement; decide
theorem InRow.abort : InRow.Statement .abort := by unfold InRow.Statement; decide
theorem InRow.pbClear : InRow.Statement .pbClear := by unfold InRow.Statement; decide
theorem InRow.pbSet : InRow.Statement .pbSet := by unfold InRow.Statement; decide
theorem InRow.pbGet : InRow.Statement .pbGet := by unfold InRow.Statement; decide
theorem InRow.lzwStart : InRow.Statement .lzwStart := by unfold InRow.Statement; decide
theorem InRow.pngStart : InRow.Statement .pngStart := by unfold InRow.Statement; decide
theorem InRow.cmdReservedOp (low : BitVec 3) : InRow.Statement (.cmdReservedOp low) := by
  simp only [InRow.Statement, Row.holds, Instr.row, encode, Encoding.format, Encoding.value, beq_self_eq_true, Bool.true_and,
    beq_iff_eq]
  exact highest_bit_row 32 3 _ _ (by decide) low _ (by decide) (by decide) (by decide)
theorem InRow.cmdReservedRsvdB4 (low : BitVec 4) : InRow.Statement (.cmdReservedRsvdB4 low) := by
  simp only [InRow.Statement, Row.holds, Instr.row, encode, Encoding.format, Encoding.value, beq_self_eq_true, Bool.true_and,
    beq_iff_eq]
  exact highest_bit_row 32 4 _ _ (by decide) low _ (by decide) (by decide) (by decide)
theorem InRow.cmdReservedRsvdB5 (low : BitVec 5) : InRow.Statement (.cmdReservedRsvdB5 low) := by
  simp only [InRow.Statement, Row.holds, Instr.row, encode, Encoding.format, Encoding.value, beq_self_eq_true, Bool.true_and,
    beq_iff_eq]
  exact highest_bit_row 32 5 _ _ (by decide) low _ (by decide) (by decide) (by decide)
theorem InRow.cmdReservedRsvdB6 (low : BitVec 6) : InRow.Statement (.cmdReservedRsvdB6 low) := by
  simp only [InRow.Statement, Row.holds, Instr.row, encode, Encoding.format, Encoding.value, beq_self_eq_true, Bool.true_and,
    beq_iff_eq]
  exact highest_bit_row 32 6 _ _ (by decide) low _ (by decide) (by decide) (by decide)
theorem InRow.cmdReservedRsvdB7 (low : BitVec 7) : InRow.Statement (.cmdReservedRsvdB7 low) := by
  simp only [InRow.Statement, Row.holds, Instr.row, encode, Encoding.format, Encoding.value, beq_self_eq_true, Bool.true_and,
    beq_iff_eq]
  exact highest_bit_row 32 7 _ _ (by decide) low _ (by decide) (by decide) (by decide)
theorem InRow.cmdReservedRsvdB8 (low : BitVec 8) : InRow.Statement (.cmdReservedRsvdB8 low) := by
  simp only [InRow.Statement, Row.holds, Instr.row, encode, Encoding.format, Encoding.value, beq_self_eq_true, Bool.true_and,
    beq_iff_eq]
  exact highest_bit_row 32 8 _ _ (by decide) low _ (by decide) (by decide) (by decide)
theorem InRow.cmdReservedRsvdB9 (low : BitVec 9) : InRow.Statement (.cmdReservedRsvdB9 low) := by
  simp only [InRow.Statement, Row.holds, Instr.row, encode, Encoding.format, Encoding.value, beq_self_eq_true, Bool.true_and,
    beq_iff_eq]
  exact highest_bit_row 32 9 _ _ (by decide) low _ (by decide) (by decide) (by decide)
theorem InRow.cmdReservedRsvdB10 (low : BitVec 10) : InRow.Statement (.cmdReservedRsvdB10 low) := by
  simp only [InRow.Statement, Row.holds, Instr.row, encode, Encoding.format, Encoding.value, beq_self_eq_true, Bool.true_and,
    beq_iff_eq]
  exact highest_bit_row 32 10 _ _ (by decide) low _ (by decide) (by decide) (by decide)
theorem InRow.cmdReservedRsvdB11 (low : BitVec 11) : InRow.Statement (.cmdReservedRsvdB11 low) := by
  simp only [InRow.Statement, Row.holds, Instr.row, encode, Encoding.format, Encoding.value, beq_self_eq_true, Bool.true_and,
    beq_iff_eq]
  exact highest_bit_row 32 11 _ _ (by decide) low _ (by decide) (by decide) (by decide)
theorem InRow.cmdReservedRsvdB12 (low : BitVec 12) : InRow.Statement (.cmdReservedRsvdB12 low) := by
  simp only [InRow.Statement, Row.holds, Instr.row, encode, Encoding.format, Encoding.value, beq_self_eq_true, Bool.true_and,
    beq_iff_eq]
  exact highest_bit_row 32 12 _ _ (by decide) low _ (by decide) (by decide) (by decide)
theorem InRow.cmdReservedRsvdB13 (low : BitVec 13) : InRow.Statement (.cmdReservedRsvdB13 low) := by
  simp only [InRow.Statement, Row.holds, Instr.row, encode, Encoding.format, Encoding.value, beq_self_eq_true, Bool.true_and,
    beq_iff_eq]
  exact highest_bit_row 32 13 _ _ (by decide) low _ (by decide) (by decide) (by decide)
theorem InRow.cmdReservedRsvdB14 (low : BitVec 14) : InRow.Statement (.cmdReservedRsvdB14 low) := by
  simp only [InRow.Statement, Row.holds, Instr.row, encode, Encoding.format, Encoding.value, beq_self_eq_true, Bool.true_and,
    beq_iff_eq]
  exact highest_bit_row 32 14 _ _ (by decide) low _ (by decide) (by decide) (by decide)
theorem InRow.cmdReservedRsvdB15 (low : BitVec 15) : InRow.Statement (.cmdReservedRsvdB15 low) := by
  simp only [InRow.Statement, Row.holds, Instr.row, encode, Encoding.format, Encoding.value, beq_self_eq_true, Bool.true_and,
    beq_iff_eq]
  exact highest_bit_row 32 15 _ _ (by decide) low _ (by decide) (by decide) (by decide)
theorem InRow.cmdReservedRsvdB16 (low : BitVec 16) : InRow.Statement (.cmdReservedRsvdB16 low) := by
  simp only [InRow.Statement, Row.holds, Instr.row, encode, Encoding.format, Encoding.value, beq_self_eq_true, Bool.true_and,
    beq_iff_eq]
  exact highest_bit_row 32 16 _ _ (by decide) low _ (by decide) (by decide) (by decide)
theorem InRow.cmdReservedRsvdB17 (low : BitVec 17) : InRow.Statement (.cmdReservedRsvdB17 low) := by
  simp only [InRow.Statement, Row.holds, Instr.row, encode, Encoding.format, Encoding.value, beq_self_eq_true, Bool.true_and,
    beq_iff_eq]
  exact highest_bit_row 32 17 _ _ (by decide) low _ (by decide) (by decide) (by decide)
theorem InRow.cmdReservedRsvdB18 (low : BitVec 18) : InRow.Statement (.cmdReservedRsvdB18 low) := by
  simp only [InRow.Statement, Row.holds, Instr.row, encode, Encoding.format, Encoding.value, beq_self_eq_true, Bool.true_and,
    beq_iff_eq]
  exact highest_bit_row 32 18 _ _ (by decide) low _ (by decide) (by decide) (by decide)
theorem InRow.cmdReservedRsvdB19 (low : BitVec 19) : InRow.Statement (.cmdReservedRsvdB19 low) := by
  simp only [InRow.Statement, Row.holds, Instr.row, encode, Encoding.format, Encoding.value, beq_self_eq_true, Bool.true_and,
    beq_iff_eq]
  exact highest_bit_row 32 19 _ _ (by decide) low _ (by decide) (by decide) (by decide)
theorem InRow.cmdReservedRsvdB20 (low : BitVec 20) : InRow.Statement (.cmdReservedRsvdB20 low) := by
  simp only [InRow.Statement, Row.holds, Instr.row, encode, Encoding.format, Encoding.value, beq_self_eq_true, Bool.true_and,
    beq_iff_eq]
  exact highest_bit_row 32 20 _ _ (by decide) low _ (by decide) (by decide) (by decide)
theorem InRow.cmdReservedRsvdB21 (low : BitVec 21) : InRow.Statement (.cmdReservedRsvdB21 low) := by
  simp only [InRow.Statement, Row.holds, Instr.row, encode, Encoding.format, Encoding.value, beq_self_eq_true, Bool.true_and,
    beq_iff_eq]
  exact highest_bit_row 32 21 _ _ (by decide) low _ (by decide) (by decide) (by decide)
theorem InRow.cmdReservedRsvdB22 (low : BitVec 22) : InRow.Statement (.cmdReservedRsvdB22 low) := by
  simp only [InRow.Statement, Row.holds, Instr.row, encode, Encoding.format, Encoding.value, beq_self_eq_true, Bool.true_and,
    beq_iff_eq]
  exact highest_bit_row 32 22 _ _ (by decide) low _ (by decide) (by decide) (by decide)
theorem InRow.cmdReservedRsvdB23 (low : BitVec 23) : InRow.Statement (.cmdReservedRsvdB23 low) := by
  simp only [InRow.Statement, Row.holds, Instr.row, encode, Encoding.format, Encoding.value, beq_self_eq_true, Bool.true_and,
    beq_iff_eq]
  exact highest_bit_row 32 23 _ _ (by decide) low _ (by decide) (by decide) (by decide)
theorem InRow.cmdReservedRsvdB24 (low : BitVec 24) : InRow.Statement (.cmdReservedRsvdB24 low) := by
  simp only [InRow.Statement, Row.holds, Instr.row, encode, Encoding.format, Encoding.value, beq_self_eq_true, Bool.true_and,
    beq_iff_eq]
  exact highest_bit_row 32 24 _ _ (by decide) low _ (by decide) (by decide) (by decide)
theorem InRow.cmdReservedRsvdB25 (low : BitVec 25) : InRow.Statement (.cmdReservedRsvdB25 low) := by
  simp only [InRow.Statement, Row.holds, Instr.row, encode, Encoding.format, Encoding.value, beq_self_eq_true, Bool.true_and,
    beq_iff_eq]
  exact highest_bit_row 32 25 _ _ (by decide) low _ (by decide) (by decide) (by decide)
theorem InRow.cmdReservedRsvdB26 (low : BitVec 26) : InRow.Statement (.cmdReservedRsvdB26 low) := by
  simp only [InRow.Statement, Row.holds, Instr.row, encode, Encoding.format, Encoding.value, beq_self_eq_true, Bool.true_and,
    beq_iff_eq]
  exact highest_bit_row 32 26 _ _ (by decide) low _ (by decide) (by decide) (by decide)
theorem InRow.cmdReservedRsvdB27 (low : BitVec 27) : InRow.Statement (.cmdReservedRsvdB27 low) := by
  simp only [InRow.Statement, Row.holds, Instr.row, encode, Encoding.format, Encoding.value, beq_self_eq_true, Bool.true_and,
    beq_iff_eq]
  exact highest_bit_row 32 27 _ _ (by decide) low _ (by decide) (by decide) (by decide)
theorem InRow.cmdReservedRsvdB28 (low : BitVec 28) : InRow.Statement (.cmdReservedRsvdB28 low) := by
  simp only [InRow.Statement, Row.holds, Instr.row, encode, Encoding.format, Encoding.value, beq_self_eq_true, Bool.true_and,
    beq_iff_eq]
  exact highest_bit_row 32 28 _ _ (by decide) low _ (by decide) (by decide) (by decide)
theorem InRow.cmdReservedRsvdB29 (low : BitVec 29) : InRow.Statement (.cmdReservedRsvdB29 low) := by
  simp only [InRow.Statement, Row.holds, Instr.row, encode, Encoding.format, Encoding.value, beq_self_eq_true, Bool.true_and,
    beq_iff_eq]
  exact highest_bit_row 32 29 _ _ (by decide) low _ (by decide) (by decide) (by decide)
theorem InRow.cmdReservedRsvdB30 (low : BitVec 30) : InRow.Statement (.cmdReservedRsvdB30 low) := by
  simp only [InRow.Statement, Row.holds, Instr.row, encode, Encoding.format, Encoding.value, beq_self_eq_true, Bool.true_and,
    beq_iff_eq]
  exact highest_bit_row 32 30 _ _ (by decide) low _ (by decide) (by decide) (by decide)
theorem InRow.cmdReservedRsvdB31 (low : BitVec 31) : InRow.Statement (.cmdReservedRsvdB31 low) := by
  simp only [InRow.Statement, Row.holds, Instr.row, encode, Encoding.format, Encoding.value, beq_self_eq_true, Bool.true_and,
    beq_iff_eq]
  exact highest_bit_row 32 31 _ _ (by decide) low _ (by decide) (by decide) (by decide)
theorem InRow.lzwClear (code : BitVec 12) : InRow.Statement (.lzwClear code) := by
  simp [InRow.Statement, Row.holds, Instr.row, encode, Encoding.format]
theorem InRow.lzwEnd (code : BitVec 12) : InRow.Statement (.lzwEnd code) := by
  simp [InRow.Statement, Row.holds, Instr.row, encode, Encoding.format]
theorem InRow.lzwBad (code : BitVec 12) : InRow.Statement (.lzwBad code) := by
  simp [InRow.Statement, Row.holds, Instr.row, encode, Encoding.format]
theorem InRow.lzwFirst (code : BitVec 12) : InRow.Statement (.lzwFirst code) := by
  simp [InRow.Statement, Row.holds, Instr.row, encode, Encoding.format]
theorem InRow.lzwKwkwk (code : BitVec 12) : InRow.Statement (.lzwKwkwk code) := by
  simp [InRow.Statement, Row.holds, Instr.row, encode, Encoding.format]
theorem InRow.lzwLit (code : BitVec 12) : InRow.Statement (.lzwLit code) := by
  simp [InRow.Statement, Row.holds, Instr.row, encode, Encoding.format]
theorem InRow.lzwDict (code : BitVec 12) : InRow.Statement (.lzwDict code) := by
  simp [InRow.Statement, Row.holds, Instr.row, encode, Encoding.format]
theorem InRow.sbTerm : InRow.Statement .sbTerm := by unfold InRow.Statement; decide
theorem InRow.sbData01 : InRow.Statement .sbData01 := by unfold InRow.Statement; decide
theorem InRow.sbData02 (low : BitVec 1) : InRow.Statement (.sbData02 low) := by
  simp only [InRow.Statement, Row.holds, Instr.row, encode, Encoding.format, Encoding.value, beq_self_eq_true, Bool.true_and,
    beq_iff_eq]
  exact highest_bit_row 8 1 _ _ (by decide) low _ (by decide) (by decide) (by decide)
theorem InRow.sbData04 (low : BitVec 2) : InRow.Statement (.sbData04 low) := by
  simp only [InRow.Statement, Row.holds, Instr.row, encode, Encoding.format, Encoding.value, beq_self_eq_true, Bool.true_and,
    beq_iff_eq]
  exact highest_bit_row 8 2 _ _ (by decide) low _ (by decide) (by decide) (by decide)
theorem InRow.sbData08 (low : BitVec 3) : InRow.Statement (.sbData08 low) := by
  simp only [InRow.Statement, Row.holds, Instr.row, encode, Encoding.format, Encoding.value, beq_self_eq_true, Bool.true_and,
    beq_iff_eq]
  exact highest_bit_row 8 3 _ _ (by decide) low _ (by decide) (by decide) (by decide)
theorem InRow.sbData10 (low : BitVec 4) : InRow.Statement (.sbData10 low) := by
  simp only [InRow.Statement, Row.holds, Instr.row, encode, Encoding.format, Encoding.value, beq_self_eq_true, Bool.true_and,
    beq_iff_eq]
  exact highest_bit_row 8 4 _ _ (by decide) low _ (by decide) (by decide) (by decide)
theorem InRow.sbData20 (low : BitVec 5) : InRow.Statement (.sbData20 low) := by
  simp only [InRow.Statement, Row.holds, Instr.row, encode, Encoding.format, Encoding.value, beq_self_eq_true, Bool.true_and,
    beq_iff_eq]
  exact highest_bit_row 8 5 _ _ (by decide) low _ (by decide) (by decide) (by decide)
theorem InRow.sbData40 (low : BitVec 6) : InRow.Statement (.sbData40 low) := by
  simp only [InRow.Statement, Row.holds, Instr.row, encode, Encoding.format, Encoding.value, beq_self_eq_true, Bool.true_and,
    beq_iff_eq]
  exact highest_bit_row 8 6 _ _ (by decide) low _ (by decide) (by decide) (by decide)
theorem InRow.sbData80 (low : BitVec 7) : InRow.Statement (.sbData80 low) := by
  simp only [InRow.Statement, Row.holds, Instr.row, encode, Encoding.format, Encoding.value, beq_self_eq_true, Bool.true_and,
    beq_iff_eq]
  exact highest_bit_row 8 7 _ _ (by decide) low _ (by decide) (by decide) (by decide)
theorem InRow.filterNone : InRow.Statement .filterNone := by unfold InRow.Statement; decide
theorem InRow.filterSub : InRow.Statement .filterSub := by unfold InRow.Statement; decide
theorem InRow.filterUp : InRow.Statement .filterUp := by unfold InRow.Statement; decide
theorem InRow.filterAvg : InRow.Statement .filterAvg := by unfold InRow.Statement; decide
theorem InRow.filterPaeth : InRow.Statement .filterPaeth := by unfold InRow.Statement; decide
theorem InRow.filterReserved05 : InRow.Statement .filterReserved05 := by unfold InRow.Statement; decide
theorem InRow.filterReserved06 (low : BitVec 1) : InRow.Statement (.filterReserved06 low) := by
  unfold InRow.Statement; revert low; decide
theorem InRow.filterReserved08 (low : BitVec 3) : InRow.Statement (.filterReserved08 low) := by
  simp only [InRow.Statement, Row.holds, Instr.row, encode, Encoding.format, Encoding.value, beq_self_eq_true, Bool.true_and,
    beq_iff_eq]
  exact highest_bit_row 8 3 _ _ (by decide) low _ (by decide) (by decide) (by decide)
theorem InRow.filterReserved10 (low : BitVec 4) : InRow.Statement (.filterReserved10 low) := by
  simp only [InRow.Statement, Row.holds, Instr.row, encode, Encoding.format, Encoding.value, beq_self_eq_true, Bool.true_and,
    beq_iff_eq]
  exact highest_bit_row 8 4 _ _ (by decide) low _ (by decide) (by decide) (by decide)
theorem InRow.filterReserved20 (low : BitVec 5) : InRow.Statement (.filterReserved20 low) := by
  simp only [InRow.Statement, Row.holds, Instr.row, encode, Encoding.format, Encoding.value, beq_self_eq_true, Bool.true_and,
    beq_iff_eq]
  exact highest_bit_row 8 5 _ _ (by decide) low _ (by decide) (by decide) (by decide)
theorem InRow.filterReserved40 (low : BitVec 6) : InRow.Statement (.filterReserved40 low) := by
  simp only [InRow.Statement, Row.holds, Instr.row, encode, Encoding.format, Encoding.value, beq_self_eq_true, Bool.true_and,
    beq_iff_eq]
  exact highest_bit_row 8 6 _ _ (by decide) low _ (by decide) (by decide) (by decide)
theorem InRow.filterReserved80 (low : BitVec 7) : InRow.Statement (.filterReserved80 low) := by
  simp only [InRow.Statement, Row.holds, Instr.row, encode, Encoding.format, Encoding.value, beq_self_eq_true, Bool.true_and,
    beq_iff_eq]
  exact highest_bit_row 8 7 _ _ (by decide) low _ (by decide) (by decide) (by decide)

end Sys2Proof.Laws
end

