-- ==== Sys2Proof/Laws/Step.lean ====
section
/-! SUPPORT. What a step finds to do and what it does with it, one case each, so that no later proof unfolds `fetch`. -/

namespace Sys2Proof.Machine

/-- A step with work to do does it. -/
theorem step_of_work {s s1 : State} (h : fetch s = .work s1) : step s = .next (tick s1) := by
  simp only [step, h]

/-- A step with a word read executes the instruction that the word decodes to. -/
theorem step_of_word {s s1 : State} {e : Encoding} (h : fetch s = .word e s1) :
    step s = tickResult (exec (decode s.lzw.ctx e) s1) := by
  simp only [step, h]

/-- The host's access other than a CMD write is work. -/
theorem fetch_of_access {s : State} {op : BusOp} {rest : List HostEvent} (hm : s.hostMoves = true)
    (hi : s.inbox = .bus op :: rest) (hc : commandWord? op = none) :
    fetch s = .work (busAccess op { s with inbox := rest }) := by
  simp only [fetch, hm, if_true, fetchHost, hi, hc]

/-- The host's CMD write is a command word, answered when it is read. -/
theorem fetch_of_command {s : State} {op : BusOp} {w : Word} {rest : List HostEvent} (hm : s.hostMoves = true)
    (hi : s.inbox = .bus op :: rest) (hc : commandWord? op = some w) :
    fetch s = .word (.cmd w) { s with inbox := rest, outbox := .ok :: s.outbox } := by
  simp only [fetch, hm, if_true, fetchHost, hi, hc, respond]

/-- When the host does not move, a BUSY engine does. -/
theorem fetch_of_engine {s : State} (hm : s.hostMoves = false) (hb : s.engine = .busy) : fetch s = fetchEngine s := by
  simp [fetch, hm, State.isBusy, hb]

/-- The LZW loop with too few bits for a code reads a byte: the length of a block, or a byte of the open one
(42_lzw.md R165, R167). -/
theorem fetchLzw_of_needsByte {s : State} (hd : s.lzw.dataSize ≠ 0)
    (hp : s.pixCnt.toNat < s.width.toNat * s.height.toNat) (ht : s.lzw.top = 0)
    (hb : s.lzw.bits.toNat < s.lzw.codeSize.toNat) :
    fetchLzw s =
      match readByte? s with
      | none => .work (raise .prematureEndOfStream s)
      | some (b, s1) =>
        if s.lzw.count = 0 then .word (.len b) s1
        else .work { s1 with lzw := { s1.lzw.loadByte b with count := s1.lzw.count - 1 } } := by
  have hp' : ¬ s.width.toNat * s.height.toNat ≤ s.pixCnt.toNat := by omega
  cases hr : readByte? s <;>
    simp only [fetchLzw, if_neg hd, if_neg hp', ht, ne_eq, not_true_eq_false, if_false, if_pos hb, hr]

end Sys2Proof.Machine
end

