-- ==== Sys2Proof/Tests/Slice0.lean ====
section
/-! SUPPORT. The model's own tests: ill-formed terms refused, words of the spec's encodings decoded, one-step vectors from
spec/95_test_vectors.md and the examples of the rules, and a witness for the hypotheses of each statement. -/

set_option Elab.async false

open Sys2Proof Sys2Proof.Machine

namespace Sys2Proof.Tests

/-! ## Well-formedness: for each check, a term that it refuses -/

/-- The context of LZW-3 (95_test_vectors.md) after its first KWKWK code: C = 4, A = 7, O = 6, width 3. -/
def ctx : LzwCtx := ⟨3, 4, 7, some 6⟩

theorem test_clear_too_wide : (Instr.lzwClear 8).wellFormed ⟨3, 8, 10, none⟩ = false := by decide
theorem test_clear_other_code : (Instr.lzwClear 5).wellFormed ctx = false := by decide
theorem test_end_too_wide : (Instr.lzwEnd 9).wellFormed ⟨3, 8, 10, none⟩ = false := by decide
theorem test_end_other_code : (Instr.lzwEnd 4).wellFormed ctx = false := by decide
theorem test_bad_too_wide : (Instr.lzwBad 8).wellFormed ctx = false := by decide
theorem test_bad_resolvable : (Instr.lzwBad 7).wellFormed ctx = false := by decide
theorem test_bad_is_clear : (Instr.lzwBad 4).wellFormed ⟨3, 4, 6, none⟩ = false := by decide
theorem test_bad_is_end : (Instr.lzwBad 5).wellFormed ⟨3, 4, 6, none⟩ = false := by decide
theorem test_first_too_wide : (Instr.lzwFirst 8).wellFormed ⟨3, 16, 18, none⟩ = false := by decide
theorem test_first_not_root : (Instr.lzwFirst 6).wellFormed ⟨3, 4, 6, none⟩ = false := by decide
theorem test_first_after_code : (Instr.lzwFirst 3).wellFormed ctx = false := by decide
theorem test_first_is_bad : (Instr.lzwFirst 3).wellFormed ⟨3, 4, 2, none⟩ = false := by decide
theorem test_kwkwk_too_wide : (Instr.lzwKwkwk 8).wellFormed ⟨3, 4, 8, some 6⟩ = false := by decide
theorem test_kwkwk_older : (Instr.lzwKwkwk 6).wellFormed ctx = false := by decide
theorem test_kwkwk_is_clear : (Instr.lzwKwkwk 4).wellFormed ⟨3, 4, 4, some 1⟩ = false := by decide
theorem test_kwkwk_is_end : (Instr.lzwKwkwk 5).wellFormed ⟨3, 4, 5, some 1⟩ = false := by decide
theorem test_kwkwk_is_bad : (Instr.lzwKwkwk 6).wellFormed ⟨3, 4, 6, none⟩ = false := by decide
theorem test_kwkwk_is_first : (Instr.lzwKwkwk 3).wellFormed ⟨3, 4, 3, none⟩ = false := by decide
theorem test_lit_too_wide : (Instr.lzwLit 8).wellFormed ⟨3, 16, 18, some 1⟩ = false := by decide
theorem test_lit_not_root : (Instr.lzwLit 6).wellFormed ctx = false := by decide
theorem test_lit_is_bad : (Instr.lzwLit 3).wellFormed ⟨3, 4, 2, some 1⟩ = false := by decide
theorem test_lit_is_first : (Instr.lzwLit 3).wellFormed ⟨3, 4, 6, none⟩ = false := by decide
theorem test_lit_is_kwkwk : (Instr.lzwLit 3).wellFormed ⟨3, 4, 3, some 1⟩ = false := by decide
theorem test_dict_too_wide : (Instr.lzwDict 8).wellFormed ⟨3, 4, 12, some 6⟩ = false := by decide
theorem test_dict_root : (Instr.lzwDict 3).wellFormed ctx = false := by decide
theorem test_dict_unbuilt : (Instr.lzwDict 7).wellFormed ctx = false := by decide
theorem test_dict_is_bad : (Instr.lzwDict 6).wellFormed ⟨3, 4, 7, none⟩ = false := by decide

/-! ## Decoding: a word of every constructor, written out from 30_encoding.md R81, R82, R87, R88, R90 -/

theorem test_decode_nop : decodeCmd 0x00000000 = .nop := by decide
theorem test_decode_reset : decodeCmd 0x00000001 = .reset := by decide
theorem test_decode_abort : decodeCmd 0x00000002 = .abort := by decide
theorem test_decode_pbClear : decodeCmd 0x00000003 = .pbClear := by decide
theorem test_decode_pbSet : decodeCmd 0x00000004 = .pbSet := by decide
theorem test_decode_pbGet : decodeCmd 0x00000005 = .pbGet := by decide
theorem test_decode_lzwStart : decodeCmd 0x00000006 = .lzwStart := by decide
theorem test_decode_pngStart : decodeCmd 0x00000007 = .pngStart := by decide
theorem test_decode_reservedOp : decodeCmd 0x0000000D = .cmdReservedOp 5 := by decide
theorem test_decode_rsvdB4 : decodeCmd 0x00000015 = .cmdReservedRsvdB4 0x5 := by decide
theorem test_decode_rsvdB5 : decodeCmd 0x0000003E = .cmdReservedRsvdB5 0x1E := by decide
theorem test_decode_rsvdB6 : decodeCmd 0x00000049 = .cmdReservedRsvdB6 0x9 := by decide
theorem test_decode_rsvdB7 : decodeCmd 0x000000B2 = .cmdReservedRsvdB7 0x32 := by decide
theorem test_decode_rsvdB8 : decodeCmd 0x000001A6 = .cmdReservedRsvdB8 0xA6 := by decide
theorem test_decode_rsvdB9 : decodeCmd 0x00000218 = .cmdReservedRsvdB9 0x18 := by decide
theorem test_decode_rsvdB10 : decodeCmd 0x0000044A = .cmdReservedRsvdB10 0x4A := by decide
theorem test_decode_rsvdB11 : decodeCmd 0x00000E91 = .cmdReservedRsvdB11 0x691 := by decide
theorem test_decode_rsvdB12 : decodeCmd 0x00001892 = .cmdReservedRsvdB12 0x892 := by decide
theorem test_decode_rsvdB13 : decodeCmd 0x00002303 = .cmdReservedRsvdB13 0x303 := by decide
theorem test_decode_rsvdB14 : decodeCmd 0x00005767 = .cmdReservedRsvdB14 0x1767 := by decide
theorem test_decode_rsvdB15 : decodeCmd 0x0000CA98 = .cmdReservedRsvdB15 0x4A98 := by decide
theorem test_decode_rsvdB16 : decodeCmd 0x00010ED9 = .cmdReservedRsvdB16 0xED9 := by decide
theorem test_decode_rsvdB17 : decodeCmd 0x0003D1C4 = .cmdReservedRsvdB17 0x1D1C4 := by decide
theorem test_decode_rsvdB18 : decodeCmd 0x0006079D = .cmdReservedRsvdB18 0x2079D := by decide
theorem test_decode_rsvdB19 : decodeCmd 0x0009B7B3 = .cmdReservedRsvdB19 0x1B7B3 := by decide
theorem test_decode_rsvdB20 : decodeCmd 0x00109995 = .cmdReservedRsvdB20 0x9995 := by decide
theorem test_decode_rsvdB21 : decodeCmd 0x0022C014 = .cmdReservedRsvdB21 0x2C014 := by decide
theorem test_decode_rsvdB22 : decodeCmd 0x005BC0D9 = .cmdReservedRsvdB22 0x1BC0D9 := by decide
theorem test_decode_rsvdB23 : decodeCmd 0x00B586AA = .cmdReservedRsvdB23 0x3586AA := by decide
theorem test_decode_rsvdB24 : decodeCmd 0x0111E20B = .cmdReservedRsvdB24 0x11E20B := by decide
theorem test_decode_rsvdB25 : decodeCmd 0x027B382E = .cmdReservedRsvdB25 0x7B382E := by decide
theorem test_decode_rsvdB26 : decodeCmd 0x045CE3DF = .cmdReservedRsvdB26 0x5CE3DF := by decide
theorem test_decode_rsvdB27 : decodeCmd 0x0C688B76 = .cmdReservedRsvdB27 0x4688B76 := by decide
theorem test_decode_rsvdB28 : decodeCmd 0x16CAD4A2 = .cmdReservedRsvdB28 0x6CAD4A2 := by decide
theorem test_decode_rsvdB29 : decodeCmd 0x21E43BB6 = .cmdReservedRsvdB29 0x1E43BB6 := by decide
theorem test_decode_rsvdB30 : decodeCmd 0x74EB252B = .cmdReservedRsvdB30 0x34EB252B := by decide
theorem test_decode_rsvdB31 : decodeCmd 0xC860C967 = .cmdReservedRsvdB31 0x4860C967 := by decide
theorem test_decode_clear : decodeCode ctx 4 = .lzwClear 4 := by decide
theorem test_decode_end : decodeCode ctx 5 = .lzwEnd 5 := by decide
theorem test_decode_bad_above : decodeCode ⟨4, 4, 8, some 3⟩ 9 = .lzwBad 9 := by decide
theorem test_decode_bad_first : decodeCode ⟨3, 4, 6, none⟩ 6 = .lzwBad 6 := by decide
theorem test_decode_first : decodeCode ⟨3, 4, 6, none⟩ 3 = .lzwFirst 3 := by decide
theorem test_decode_kwkwk : decodeCode ctx 7 = .lzwKwkwk 7 := by decide
theorem test_decode_lit : decodeCode ctx 3 = .lzwLit 3 := by decide
theorem test_decode_dict : decodeCode ctx 6 = .lzwDict 6 := by decide
theorem test_decode_len_00 : decodeLen 0x00 = .sbTerm := by decide
theorem test_decode_len_01 : decodeLen 0x01 = .sbData01 := by decide
theorem test_decode_len_03 : decodeLen 0x03 = .sbData02 1 := by decide
theorem test_decode_len_06 : decodeLen 0x06 = .sbData04 2 := by decide
theorem test_decode_len_0D : decodeLen 0x0D = .sbData08 5 := by decide
theorem test_decode_len_17 : decodeLen 0x17 = .sbData10 7 := by decide
theorem test_decode_len_20 : decodeLen 0x20 = .sbData20 0 := by decide
theorem test_decode_len_7F : decodeLen 0x7F = .sbData40 0x3F := by decide
theorem test_decode_len_FF : decodeLen 0xFF = .sbData80 0x7F := by decide
theorem test_decode_filter_00 : decodeFilter 0x00 = .filterNone := by decide
theorem test_decode_filter_01 : decodeFilter 0x01 = .filterSub := by decide
theorem test_decode_filter_02 : decodeFilter 0x02 = .filterUp := by decide
theorem test_decode_filter_03 : decodeFilter 0x03 = .filterAvg := by decide
theorem test_decode_filter_04 : decodeFilter 0x04 = .filterPaeth := by decide
theorem test_decode_filter_05 : decodeFilter 0x05 = .filterReserved05 := by decide
theorem test_decode_filter_07 : decodeFilter 0x07 = .filterReserved06 1 := by decide
theorem test_decode_filter_0A : decodeFilter 0x0A = .filterReserved08 2 := by decide
theorem test_decode_filter_1F : decodeFilter 0x1F = .filterReserved10 0xF := by decide
theorem test_decode_filter_25 : decodeFilter 0x25 = .filterReserved20 5 := by decide
theorem test_decode_filter_40 : decodeFilter 0x40 = .filterReserved40 0 := by decide
theorem test_decode_filter_FF : decodeFilter 0xFF = .filterReserved80 0x7F := by decide

/-- S4 of 95_test_vectors.md: the first two bytes of the stream start with the code 4 of width 3. -/
theorem test_decodeBytes_code : decodeBytes (LzwCtx.start 2) .lzwCode [0x8C, 0x56] = .ok (.lzwClear 4, []) := by decide

/-- A command word's bytes, the least significant first (log 22). -/
theorem test_decodeBytes_command :
    decodeBytes (LzwCtx.start 2) .cmd32 [0x10, 0, 0, 0x80, 9] = .ok (.cmdReservedRsvdB31 0x10, [9]) := by decide

/-- The first vector's words through the host's form. -/
theorem test_tableWord : decodeTableWord 32 6 = some .lzwStart ∧ decodeTableWord 8 4 = some .filterPaeth := by decide

/-! ## States -/

/-- Parameters large enough for every test (95_test_vectors.md: BAD_CODE_POLICY = Fault). -/
def prm : Params := ⟨4096, 4096, 1024, 1024, .fault⟩

/-- The machine after reset, with those parameters. -/
def base : State := { State.reset with params := prm }

/-- Bytes from a bus address on. -/
def cells (a : Nat) (l : List Nat) : Memory := cellsAt a (l.map (BitVec.ofNat 8))

/-- The bytes of OUTBUF from index 0. -/
def out (n : Nat) (s : State) : List Nat := (List.range n).map fun i => (s.byteAt (0x20000000 + i)).toNat

/-- What a function of the next state answers; nothing when there is none. -/
def nextOf {α : Type} (r : Result) (f : State → α) : Option α :=
  match r with
  | .next s => some (f s)
  | .fault _ => none
  | .refused _ => none

/-- A host write of a command word, about to be taken. -/
def cmd (w : Word) (s : State) : State := { s with inbox := [.bus ⟨true, 32, 0, w⟩], hostNext := true }

/-- A pixel buffer with its operands and its bytes. -/
def pb (w h bpc ncomp x y c v : Nat) (bytes : List Nat) : State :=
  { base with
    width := BitVec.ofNat 32 w
    height := BitVec.ofNat 32 h
    outFmt := ⟨BitVec.ofNat 5 bpc, BitVec.ofNat 3 ncomp, false⟩
    pxX := BitVec.ofNat 32 x
    pxY := BitVec.ofNat 32 y
    pxC := BitVec.ofNat 32 c
    pxV := BitVec.ofNat 32 v
    mem := cells 0x20000000 bytes }

/-- The LZW unit of data size 2 with one entry built, 6 = (1, 1), as LZW-3 has it after its third code; the previous code
is 6 and the first pixel 1. -/
def unit : Lzw where
  dataSize := 2
  clearCode := 4
  endCode := 5
  codeSize := 3
  available := 7
  oldCode := some 6
  first := 1
  datum := 0
  bits := 0
  count := 0
  top := 0
  pfx := ⟨0, [(0, 0), (1, 0), (2, 0), (3, 0), (6, 1)]⟩
  sfx := ⟨1, [(0, 0), (1, 1), (2, 2), (3, 3), (6, 1)]⟩
  stack := ⟨2, []⟩

/-- A running LZW decode: W = 4, H = 1, 2 bits, input of five bytes of which two are read. -/
def lzwState (l : Lzw) : State :=
  { base with
    engine := .busy
    unit := .lzw
    width := 4
    height := 1
    inFmt := ⟨2, 0, false⟩
    outFmt := ⟨2, 1, false⟩
    inLen := 5
    inPos := 2
    lzw := l
    mem := cells 0x10000000 [0x02, 0x02, 0x8C, 0x56, 0x00] ++ cells 0x20000000 [0] }

/-- A running PNG decode of 8-bit gray samples at the start of a pass: its size, interlace, pass, pass size and input. -/
def pngState (w h : Nat) (il : Bool) (pass pw ph y pix : Nat) (input : List Nat) : State :=
  { base with
    engine := .busy
    unit := .png
    width := BitVec.ofNat 32 w
    height := BitVec.ofNat 32 h
    inFmt := ⟨8, 0, il⟩
    outFmt := ⟨8, 1, false⟩
    inLen := BitVec.ofNat 32 input.length
    pixCnt := BitVec.ofNat 32 pix
    png := { Png.reset with
      bands := 1
      bpp := 1
      pass := BitVec.ofNat 3 pass
      passWidth := BitVec.ofNat 32 pw
      passHeight := BitVec.ofNat 32 ph
      rowBytes := BitVec.ofNat 32 pw
      srcY := BitVec.ofNat 32 y
      prior := ⟨4, cellsAt 0 (List.replicate pw 0)⟩ }
    mem := cells 0x10000000 input ++ cells 0x20000000 (List.replicate (w * h) 0) }

/-! ## One-step vectors -/

/-- C-5 of 95_test_vectors.md: NOP in DONE leaves STATUS 0x4202. -/
theorem test_nop : nextOf (step (cmd 0
    { base with engine := .done, endReason := .pixelsDone, unit := .lzw })) State.status = some 0x4202 := by decide

/-- C-14: RESET in FAULT leaves STATUS 0, and every register at its reset value. -/
theorem test_reset : nextOf (step (cmd 1
    { base with engine := .fault, faultCode := .boundsCheck, unit := .pb, cmdErr := true, width := 9, pxV := 3 }))
      (fun s => (List.range 16).map fun k => (readReg s (4 * k)).toNat) = some (List.replicate 16 0) := by decide

/-- C-6: ABORT in DONE clears the end reason and keeps UNIT. -/
theorem test_abort : nextOf (step (cmd 2
    { base with engine := .done, endReason := .pixelsDone, unit := .lzw })) State.status = some 0x4000 := by decide

/-- C-12: ABORT in FAULT is refused. -/
theorem test_abort_refused : nextOf (step (cmd 2
    { base with engine := .fault, faultCode := .boundsCheck, unit := .pb })) State.status = some 0x2077 := by decide

/-- C-2, C-3 and R82: every reserved command sets CMDERR; one word for each row of the table. -/
theorem test_reserved_commands :
    ((List.range 28).all fun k => nextOf (step (cmd (BitVec.ofNat 32 (2 ^ (k + 4))) base)) State.status == some 4) = true ∧
      nextOf (step (cmd 8 base)) State.status = some 4 := by decide

/-- PB-20: a geometry of depth 3 faults, with UNIT PB. -/
theorem test_pbClear_geometry : nextOf (step (cmd 3 (pb 1 1 3 1 0 0 0 0 []))) State.status = some 0x2063 := by decide

/-- PB_CLEAR zeroes the four bytes of a 10x2 buffer of 1-bit samples and no more. -/
theorem test_pbClear : nextOf (step (cmd 3 (pb 10 2 1 1 0 0 0 0 [1, 2, 3, 4, 5]))) (out 5) = some [0, 0, 0, 0, 5] := by decide

/-- PB-6: the third component of pixel (1, 1), 4 bits, lies in the low half of byte 10. -/
theorem test_pbSet : nextOf (step (cmd 4 (pb 5 2 4 3 1 1 2 0xF (List.replicate 16 0)))) (out 16) =
    some [0, 0, 0, 0, 0, 0, 0, 0, 0, 0, 0x0F, 0, 0, 0, 0, 0] := by decide

/-- PB-12: the second write of a sub-byte sample leaves the OR. -/
theorem test_pbSet_or : nextOf (step (cmd 4 (pb 4 1 2 1 1 0 0 2 [0x10]))) (out 1) = some [0x30] := by decide

/-- PB-10: a 16-bit sample is read big-endian. -/
theorem test_pbGet : nextOf (step (cmd 5 (pb 1 1 16 1 0 0 0 0 [0xBE, 0xEF]))) (fun s => s.pxV) = some 0xBEEF := by decide

/-- PB-18: a column out of bounds. -/
theorem test_pbGet_bounds : nextOf (step (cmd 5 (pb 10 2 1 1 10 0 0 0 [0, 0, 0, 0]))) State.status = some 0x2073 := by decide

/-- LZW-1: the configuration is accepted and OUT_FMT is written. -/
theorem test_lzwStart : nextOf (step (cmd 6 { base with width := 3, height := 1, inFmt := ⟨2, 0, false⟩, inLen := 5 }))
    (fun s => (s.status, s.outFmt.toWord, out 1 s)) = some (0x4001, 0x102, [0]) := by decide

/-- LZW-E9: depth 3 is refused by the check. -/
theorem test_lzwStart_depth : nextOf (step (cmd 6 { base with width := 4, height := 1, inFmt := ⟨3, 0, false⟩, inLen := 5 }))
    State.status = some 0x4063 := by decide

/-- PNG-5: gray with alpha gets one component and a mask. -/
theorem test_pngStart : nextOf (step (cmd 7 { base with width := 2, height := 1, inFmt := ⟨8, 4, false⟩, inLen := 5 }))
    (fun s => (s.status, s.outFmt.toWord, s.png.rowBytes, s.png.bpp)) = some (0x6001, 0x10108, 4, 2) := by decide

/-- PNG-E5: color type 2 has no depth 4. -/
theorem test_pngStart_pair : nextOf (step (cmd 7 { base with width := 1, height := 1, inFmt := ⟨4, 2, false⟩, inLen := 2 }))
    State.status = some 0x6063 := by decide

/-- What a code of the unit does: LZW_STAT and the pixels in the order in which they are popped. -/
def codeOf (i : Instr) (l : Lzw) : Option (Word × List Nat) :=
  nextOf (exec i (lzwState l)) fun s => (s.lzwStat, s.lzw.stackList.map BitVec.toNat)

/-- 42_lzw.md R170: a clear brings width 3 and slot 6 back. -/
theorem test_code_clear : codeOf (.lzwClear 4) unit = some (0x632, []) := by decide

/-- 42_lzw.md R171. -/
theorem test_code_end : nextOf (exec (.lzwEnd 5) (lzwState unit)) State.status = some 0x4102 := by decide

/-- LZW-E1 and LZW-E1s: a code above A, by the policy. -/
theorem test_code_bad : nextOf (exec (.lzwBad 7) (lzwState unit)) State.status = some 0x4043 ∧
    nextOf (exec (.lzwBad 7) { lzwState unit with params := { prm with badCode := .softStop } }) State.status =
      some 0x4502 := by decide

/-- LZW-3, `1/3 FIRST[1]`. -/
theorem test_code_first : codeOf (.lzwFirst 1) { unit with available := 6, oldCode := none } = some (0x632, [1]) := by decide

/-- LZW-3, `6/3 KWKWK[1 1]`. -/
theorem test_code_kwkwk : codeOf (.lzwKwkwk 6) { unit with available := 6, oldCode := some 1 } = some (0x732, [1, 1]) := by
  decide

/-- LZW-3, `6/3 DICT[1 1]`: slot 8 brings width 4. -/
theorem test_code_dict : codeOf (.lzwDict 6) unit = some (0x842, [1, 1]) := by decide

/-- LZW-3, `2/4 LIT[2]`: the new entry is (6, 2). -/
theorem test_code_lit : nextOf (exec (.lzwLit 2) (lzwState { unit with codeSize := 4, available := 8 }))
    (fun s => (s.lzwStat, s.lzw.pfx.get 8, s.lzw.sfx.get 8)) = some (0x942, 6, 2) := by decide

/-- LZW-10: the terminator ends the decode with TERM_SEEN. -/
theorem test_terminator : nextOf (exec .sbTerm (lzwState unit)) State.status = some 0x440A := by decide

/-- LZW-E7 and LZW-1: with three bytes present, a block of five is cut short and one of two is not. -/
theorem test_block_length : nextOf (exec (.sbData04 1) (lzwState unit)) State.status = some 0x4023 ∧
    nextOf (exec (.sbData02 0) (lzwState unit)) (fun s => s.lzw.count) = some 2 ∧
    nextOf (exec .sbData01 (lzwState unit)) (fun s => s.lzw.count) = some 1 := by decide

/-- 30_encoding.md R88: the lengths of the wider rows, each with just enough input. -/
theorem test_block_lengths :
    nextOf (exec (.sbData08 5) { lzwState unit with inLen := 15 }) (fun s => s.lzw.count) = some 13 ∧
    nextOf (exec (.sbData10 7) { lzwState unit with inLen := 25 }) (fun s => s.lzw.count) = some 23 ∧
    nextOf (exec (.sbData20 0) { lzwState unit with inLen := 34 }) (fun s => s.lzw.count) = some 32 ∧
    nextOf (exec (.sbData40 0x3F) { lzwState unit with inLen := 129 }) (fun s => s.lzw.count) = some 127 ∧
    nextOf (exec (.sbData80 0x7F) { lzwState unit with inLen := 257 }) (fun s => s.lzw.count) = some 255 := by decide

/-- A row unfiltered, as numbers. -/
def row (pred : Predictor) (bpp : Nat) (raw prior : List Nat) : List Nat :=
  (unfilterRow pred bpp (prior.map (BitVec.ofNat 8)) (raw.map (BitVec.ofNat 8))).map BitVec.toNat

/-- F-2. -/
theorem test_row_sub : row predSub 3 [0x0A, 0x14, 0x1E, 5, 5, 5, 0xFA, 0xFA, 0xFA] [] =
    [0x0A, 0x14, 0x1E, 0x0F, 0x19, 0x23, 0x09, 0x13, 0x1D] := by decide

/-- F-3. -/
theorem test_row_up : row predUp 1 [1, 2, 3, 0xC8] [0x64, 0xC8, 0xFF, 0x64] = [0x65, 0xCA, 0x02, 0x2C] := by decide

/-- F-6: the sum is not reduced before it is halved. -/
theorem test_row_avg : row predAvg 1 [0xFF, 0x00] [0x00, 0xFF] = [0xFF, 0xFF] := by decide

/-- F-7. -/
theorem test_row_paeth : row predPaeth 1 [5, 5, 5, 5] [0x0A, 0x14, 0x0F, 0xC8] = [0x0F, 0x19, 0x19, 0xCD] := by decide

/-- 95_test_vectors.md, Paeth predictor: a tie of a with b, b alone, c alone. -/
theorem test_paeth : paeth 255 255 0 = 255 ∧ paeth 100 50 200 = 50 ∧ paeth 5 9 7 = 7 := by decide

/-- The first row of a two-row gray image through its filter byte: the output and the position. -/
def firstRow (f : Nat) : Option (List Nat × Word × Word) :=
  nextOf (step (pngState 2 2 false 1 2 2 0 0 [f, 5, 6, 0, 7, 8])) fun s => (out 4 s, s.inPos, s.png.srcY)

theorem test_filter_none : firstRow 0 = some ([5, 6, 0, 0], 3, 1) := by decide
theorem test_filter_sub : firstRow 1 = some ([5, 11, 0, 0], 3, 1) := by decide
theorem test_filter_up : firstRow 2 = some ([5, 6, 0, 0], 3, 1) := by decide
theorem test_filter_avg : firstRow 3 = some ([5, 8, 0, 0], 3, 1) := by decide
theorem test_filter_paeth : firstRow 4 = some ([5, 11, 0, 0], 3, 1) := by decide

/-- PNG-E1 and PNG-E6: a reserved filter type, one byte of each row of the table. -/
theorem test_filter_reserved : ∀ f ∈ [5, 7, 8, 0x1F, 0x20, 0x40, 0xFF],
    nextOf (step (pngState 1 1 false 1 1 1 0 0 [f, 0])) (fun s => (s.status, s.inPos)) = some (0x6033, 1) := by decide

/-- PNG-3: pass 1 of a 3x3 image is one pixel; passes 2 and 3 are empty, so pass 4 follows. -/
theorem test_adam7_pass : nextOf (step (pngState 3 3 true 1 1 1 0 0 [0, 0x0B]))
    (fun s => (out 9 s, s.png.pass, s.pixCnt)) = some ([0x0B, 0, 0, 0, 0, 0, 0, 0, 0], 4, 1) := by decide

/-- 42_lzw.md R179: the row order of 95_test_vectors.md LZW-4. -/
theorem test_gifOrder : gifOrder 10 = [0, 8, 4, 2, 6, 1, 3, 5, 7, 9] := by decide

/-- M-8: STRIDE saturates. -/
theorem test_stride : readReg (storeReg (storeReg base 0x0C 0xFFFFFFFF) 0x18 0x410) 0x1C = 0xFFFFFFFF := by decide

/-- M-9 to M-12: refused accesses. -/
theorem test_bus_errors : ∀ op ∈ [(⟨false, 32, 0x40, 0⟩ : BusOp), ⟨false, 8, 4, 0⟩, ⟨false, 32, 6, 0⟩, ⟨true, 16, 0x20000000, 1⟩,
    ⟨true, 8, 0x10001000, 1⟩], nextOf (step { base with inbox := [.bus op] }) (fun s => (s.outbox, s.mem)) =
      some ([.error], []) := by decide

/-- The placed command and the placed filter byte run (log 15). -/
theorem test_withFetchWord : nextOf (step (State.reset.withFetchWord 32 8)) State.status = some 4 ∧
    nextOf (step (State.reset.withFetchWord 8 4)) State.status = some 0x6602 := by decide

/-! ## Witnesses: concrete states and operands that meet the hypotheses of the statements -/

/-- A running decode between two codes: the unit with 16 bits loaded. -/
def lzwBusy : State := lzwState { unit with datum := 0x568C, bits := 16 }

theorem unit_good : unit.Good where
  dataSize := by decide
  clearCode := by decide
  endCode := by decide
  codeSize := by decide
  available := by decide
  width := .inl (by decide)
  oldCode := by intro o h; cases h; exact ⟨by decide, .inr (by decide)⟩
  bits := by decide
  datum := by decide
  top := by decide
  roots := by decide
  entries := by
    have h : ∀ j, j < 7 → 6 ≤ j → j = 6 := by decide
    intro j h1 h2
    obtain rfl := h j h2 h1
    exact ⟨by decide, .inl (by decide)⟩

theorem unit_good_with (datum : BitVec 19) (bits : BitVec 5) (top : BitVec 13) (stack : Table 8) (hb : bits.toNat ≤ 19)
    (hd : datum.toNat < 2 ^ bits.toNat) (ht : top.toNat ≤ Config.lzwStackEntries) :
    ({ unit with datum := datum, bits := bits, top := top, stack := stack } : Lzw).Good :=
  { unit_good with bits := hb, datum := hd, top := ht }

theorem lzwBusy_run : LzwRun lzwBusy where
  check := ⟨by decide, by decide, by decide, by decide⟩
  fmt := by decide
  pos := by decide
  pix := by decide
  good := fun _ => unit_good_with 0x568C 16 0 _ (by decide) (by decide) (by decide)
  block := fun _ => by decide

/-- A state with a running LZW decode meets the invariant. -/
theorem lzwBusy_inv : Inv lzwBusy where
  params := by decide
  mem := by decide
  status := ⟨by decide, by decide, fun _ => .inl rfl⟩
  lzw := fun _ _ => lzwBusy_run
  png := fun _ h => by cases h

/-- The running PNG decode of a two-row gray image. -/
def pngBusy : State := pngState 2 2 false 1 2 2 0 0 [0, 5, 6, 0, 7, 8]

theorem pngState_run (w h : Nat) (il : Bool) (pass pw ph y pix : Nat) (input : List Nat)
    (hyp : let s := pngState w h il pass pw ph y pix input
      (1 ≤ s.width.toNat ∧ 1 ≤ s.height.toNat) ∧
      s.inLen.toNat ≤ 4096 ∧
      strideOf s.width.toNat 1 8 * s.height.toNat ≤ 4096 ∧ ceilDiv (1 * s.width.toNat * 8) 8 ≤ 1024 ∧
      (1 ≤ s.png.pass.toNat ∧ s.png.pass.toNat ≤ lastPass il) ∧
      s.png.passWidth.toNat = passWidthOf il s.width.toNat s.png.pass.toNat ∧
      s.png.passHeight.toNat = passHeightOf il s.height.toNat s.png.pass.toNat ∧ s.png.passWidth.toNat ≠ 0 ∧
      s.png.rowBytes.toNat = ceilDiv (1 * s.png.passWidth.toNat * 8) 8 ∧
      s.png.srcY.toNat < s.png.passHeight.toNat ∧
      s.pixCnt.toNat = placedBefore il s.width.toNat s.height.toNat s.png.pass.toNat +
        s.png.srcY.toNat * s.png.passWidth.toNat) :
    PngRun (pngState w h il pass pw ph y pix input) := by
  obtain ⟨h1, h2, h3, h4, h5, h6, h7, h8, h9, h10, h11⟩ := hyp
  exact {
    check := ⟨h1, (by decide : (0, 8, 1) ∈ pngTable), h2, h3, fun h => by simp [pngState] at h, h4⟩
    fmt := by simp [pngState, pngOutFmt, pngOutBpc, pngBands, pngAlpha]
    alpha := by simp [pngState, pngAlpha, Png.reset]
    bpp := (by decide : (1#4).toNat = max 1 ((1#3).toNat * (8#5).toNat / 8))
    pass := h5
    passWidth := h6
    passHeight := h7
    nonempty := h8
    rowBytes := h9
    srcY := h10
    pos := Nat.zero_le _
    pix := h11 }

theorem pngBusy_run : PngRun pngBusy := pngState_run _ _ _ _ _ _ _ _ _ (by decide)

/-- A state with a running PNG decode meets the invariant. -/
theorem pngBusy_inv : Inv pngBusy where
  params := by decide
  mem := by decide
  status := ⟨by decide, by decide, fun _ => .inr rfl⟩
  lzw := fun _ h => by cases h
  png := fun _ _ => pngBusy_run

/-- StepKeepsInvariant, StepNeverStops, EveryRunEnds, RunWritesOnlyUsedRegions: one state of each running unit. -/
theorem test_witness_runs :
    (Inv lzwBusy ∧ ∃ t, step lzwBusy = .next t) ∧ (Inv pngBusy ∧ ∃ t, step pngBusy = .next t) ∧
      lzwBusy.engine = .busy ∧ pngBusy.engine = .busy ∧ lzwBusy.inbox = [] ∧ pngBusy.inbox = [] ∧
      lzwBusy.hostMoves = false ∧ pngBusy.hostMoves = false ∧
      ¬ InUsedOut lzwBusy 0x20000001 ∧ ¬ InUsedMask lzwBusy 0x20000001 :=
  ⟨⟨lzwBusy_inv, _, rfl⟩, ⟨pngBusy_inv, _, rfl⟩, rfl, rfl, rfl, rfl, rfl, rfl, fun h => absurd h.2 (by decide),
    fun h => absurd h.1 (by decide)⟩

/-- A machine in FAULT with CMDERR set and one event pending. -/
def faultState (e : HostEvent) : State :=
  { base with engine := .fault, faultCode := .boundsCheck, unit := .pb, cmdErr := true, inbox := [e] }

/-- FaultLeftOnlyByReset, CmdErrIsSticky: RESET and the reset input. -/
theorem test_witness_fault_left :
    nextOf (step (faultState (.bus ⟨true, 32, 0, 1⟩))) (fun t => (t.engine, t.cmdErr)) = some (.idle, false) ∧
      nextOf (step (faultState .powerOn)) (fun t => (t.engine, t.cmdErr)) = some (.idle, false) ∧
      (faultState .powerOn).engine = .fault ∧ (faultState .powerOn).cmdErr = true := by decide

/-- ParametersNeverChange: the idle step after reset. -/
theorem test_witness_parameters : step State.reset = .next State.reset := rfl

/-- DecodeOfEncode and EncodeOfDecode: the largest code of width 3, and the largest of width 12. -/
theorem test_witness_codes :
    (Instr.lzwKwkwk 7).wellFormed ctx = true ∧ ctx.fits 7 = true ∧
      (Instr.lzwDict 0xFFF).wellFormed ⟨12, 256, 4096, some 1⟩ = true ∧
      LzwCtx.fits ⟨12, 256, 4096, some 1⟩ 0xFFF = true := by decide

/-- ReservedWordsAreRefused: OP 8 and 15, and the lowest and highest reserved bits. -/
theorem test_witness_reserved :
    8 ≤ ((0x8#32).extractLsb' 0 4).toNat ∧ 8 ≤ ((0xF#32).extractLsb' 0 4).toNat ∧
      (0x10#32).extractLsb' 4 28 ≠ 0 ∧ (0x80000000#32).extractLsb' 4 28 ≠ 0 := by decide

/-- StepRunsDecodedInstruction: a CMD write in IDLE and one in BUSY with the host's turn; a length byte, with 2 of 3 bits
held; a code, with exactly 3; a filter byte. -/
theorem test_witness_step :
    ((cmd 7 base).inbox = .bus ⟨true, 32, 0, 7⟩ :: [] ∧ (cmd 7 base).engine ≠ .busy) ∧
    ((cmd 2 lzwBusy).inbox = .bus ⟨true, 32, 0, 2⟩ :: [] ∧ (cmd 2 lzwBusy).hostNext = true) ∧
    (let s := lzwState { unit with datum := 1, bits := 2 }
     s.hostMoves = false ∧ s.engine = .busy ∧ s.unit = .lzw ∧ s.lzw.dataSize ≠ 0 ∧
      s.pixCnt.toNat < s.width.toNat * s.height.toNat ∧ s.lzw.top = 0 ∧ s.lzw.bits.toNat < s.lzw.codeSize.toNat ∧
      s.lzw.count = 0 ∧ s.inPos.toNat < s.inLen.toNat) ∧
    (let s := lzwState { unit with datum := 1, bits := 3 }
     s.hostMoves = false ∧ s.engine = .busy ∧ s.unit = .lzw ∧ s.lzw.dataSize ≠ 0 ∧
      s.pixCnt.toNat < s.width.toNat * s.height.toNat ∧ s.lzw.top = 0 ∧ s.lzw.codeSize.toNat ≤ s.lzw.bits.toNat) ∧
    (pngBusy.hostMoves = false ∧ pngBusy.engine = .busy ∧ pngBusy.unit = .png ∧
      pngBusy.inPos.toNat < pngBusy.inLen.toNat) := by decide

/-- ResetCommandResets, AbortStopsTheUnit, AcceptanceTable: one state of each kind, and addresses just outside the used
region of one byte. -/
theorem test_witness_states :
    base.engine = .idle ∧ ({ base with engine := .done, endReason := .endCode } : State).engine = .done ∧
      lzwBusy.engine = .busy ∧ (faultState .powerOn).engine = .fault ∧
      ¬ InUsedOut lzwBusy 0x1FFFFFFF ∧ ¬ InUsedOut lzwBusy 0x20000001 ∧ ¬ InUsedMask lzwBusy 0x20000001 ∧
      (∃ t, exec .abort lzwBusy = .next t) ∧ ∃ t, exec .reset lzwBusy = .next t :=
  ⟨rfl, rfl, rfl, rfl, fun h => absurd h.1 (by decide), fun h => absurd h.2 (by decide), fun h => absurd h.1 (by decide),
    ⟨_, rfl⟩, _, rfl⟩

/-- PbClearZeroesTheUsedRegion, PbSetWritesTheSample, PbGetReadsTheSample: the last sample of a legal geometry of 4, 8 and
16 bits, and one with a mask. -/
theorem test_witness_pb :
    (∀ s ∈ [pb 3 2 1 4 2 1 3 1 [], pb 3 2 4 1 2 1 0 15 [], pb 3 2 8 3 2 1 2 255 [], pb 3 2 16 4 2 1 3 65535 [],
        { pb 3 2 8 1 2 1 0 7 [] with outFmt := ⟨8, 1, true⟩ }],
      s.engine = .idle ∧ GeomLegal s ∧ InBounds s s.pxX.toNat s.pxY.toNat s.pxC.toNat) := by
  simp only [List.forall_mem_cons, List.not_mem_nil, false_implies, implies_true, and_true]
  refine ⟨?_, ?_, ?_, ?_, ?_⟩ <;>
    exact ⟨rfl, ⟨by decide, by decide, by decide, by decide, by decide⟩, ⟨by decide, by decide, by decide⟩⟩

/-- IllegalGeometryFaults: a width of 0, a depth of 3, five components, one byte too many for OUTBUF and for MASKBUF. -/
theorem test_witness_geometry :
    ¬ GeomLegal base ∧ ¬ GeomLegal (pb 1 1 3 1 0 0 0 0 []) ∧ ¬ GeomLegal (pb 1 1 8 5 0 0 0 0 []) ∧
      ¬ GeomLegal (pb 4097 1 8 1 0 0 0 0 []) ∧
      ¬ GeomLegal { pb 1025 1 8 1 0 0 0 0 [] with outFmt := ⟨8, 1, true⟩ } ∧ base.engine = .idle :=
  ⟨fun h => absurd h.size (by decide), fun h => absurd h.depth (by decide), fun h => absurd h.comps (by decide),
    fun h => absurd h.fitsOut (by decide), fun h => absurd h.fitsMask (by decide), rfl⟩

/-- OutOfBoundsFaults: each coordinate at its first illegal value. -/
theorem test_witness_bounds :
    (∀ s ∈ [pb 10 2 1 1 10 0 0 1 [], pb 10 2 1 1 0 2 0 1 [], pb 2 1 8 1 1 0 1 0 []],
      s.engine = .idle ∧ GeomLegal s ∧ ¬ InBounds s s.pxX.toNat s.pxY.toNat s.pxC.toNat) := by
  simp only [List.forall_mem_cons, List.not_mem_nil, false_implies, implies_true, and_true]
  refine ⟨⟨rfl, ⟨by decide, by decide, by decide, by decide, by decide⟩, fun h => absurd h.1 (by decide)⟩,
    ⟨rfl, ⟨by decide, by decide, by decide, by decide, by decide⟩, fun h => absurd h.2.1 (by decide)⟩,
    rfl, ⟨by decide, by decide, by decide, by decide, by decide⟩, fun h => absurd h.2.2 (by decide)⟩

/-- SetThenGetRoundTrips, SubByteWritesOr: the last sample of a zero buffer, the largest value of 4 bits; and 16 bits. -/
theorem test_witness_samples :
    (GeomLegal (pb 3 2 4 1 0 0 0 0 [0, 0, 0, 0]) ∧ InBounds (pb 3 2 4 1 0 0 0 0 [0, 0, 0, 0]) 2 1 0 ∧
      getPixel (pb 3 2 4 1 0 0 0 0 [0, 0, 0, 0]) 2 1 0 = 0 ∧ 15 < 2 ^ (pb 3 2 4 1 0 0 0 0 []).outFmt.bpc.toNat ∧
      (pb 3 2 4 1 0 0 0 0 []).outFmt.bpc.toNat < 8) ∧
    GeomLegal (pb 1 1 16 1 0 0 0 0 [0, 0]) ∧ InBounds (pb 1 1 16 1 0 0 0 0 [0, 0]) 0 0 0 ∧
      getPixel (pb 1 1 16 1 0 0 0 0 [0, 0]) 0 0 0 = 0 ∧ 65535 < 2 ^ (pb 1 1 16 1 0 0 0 0 []).outFmt.bpc.toNat :=
  ⟨⟨⟨by decide, by decide, by decide, by decide, by decide⟩, ⟨by decide, by decide, by decide⟩, by decide, by decide,
    by decide⟩, ⟨by decide, by decide, by decide, by decide, by decide⟩, ⟨by decide, by decide, by decide⟩, by decide,
    by decide⟩

/-- A legal LZW configuration in IDLE. -/
def lzwIdle : State := { base with width := 3, height := 1, inFmt := ⟨2, 0, false⟩, inLen := 4096 }

/-- LzwStartInitialises, LzwStartChecksItsConfiguration: an input that just fits, and configurations that just do not. -/
theorem test_witness_lzwStart :
    lzwIdle.engine = .idle ∧ LzwLegal lzwIdle ∧ ¬ LzwLegal { lzwIdle with inLen := 4097 } ∧
      ¬ LzwLegal { lzwIdle with height := 0 } ∧ ¬ LzwLegal { lzwIdle with inFmt := ⟨16, 0, false⟩ } ∧
      ¬ LzwLegal { lzwIdle with height := 4097 } :=
  ⟨rfl, ⟨by decide, by decide, by decide, by decide⟩, fun h => absurd h.input (by decide),
    fun h => absurd h.size (by decide), fun h => absurd h.depth (by decide), fun h => absurd h.fits (by decide)⟩

/-- An LZW decode that has not read its header: the first byte, and the input length. -/
def lzwFresh (ds : Nat) (len : Word) : State :=
  { lzwState Lzw.reset with inPos := 0, inLen := len, mem := cells 0x10000000 [ds] ++ cells 0x20000000 [0] }

/-- LzwHeaderReadsTheDataSize: no byte; data sizes 1 and 9; data sizes 2 and 8. -/
theorem test_witness_lzwHeader :
    (∀ ds ∈ [1, 2, 8, 9], (lzwFresh ds 1).engine = .busy ∧ (lzwFresh ds 1).unit = .lzw ∧ (lzwFresh ds 1).hostMoves = false ∧
      (lzwFresh ds 1).lzw.dataSize = 0 ∧ (lzwFresh ds 1).inPos.toNat < (lzwFresh ds 1).inLen.toNat ∧
      ds = ((lzwFresh ds 1).byteAt (0x10000000 + (lzwFresh ds 1).inPos.toNat)).toNat) ∧
    (lzwFresh 2 0).inLen.toNat ≤ (lzwFresh 2 0).inPos.toNat := by decide

/-- ClearResetsTheDictionary, FirstCodePushesItsPixel, DataCodesPushTheirPixels, AccumulatorHoldsTheStream: a good unit with
an empty stack, the largest root, the only entry and the next slot as codes, and 2 or exactly 3 bits held. -/
theorem test_witness_unit :
    unit.Good ∧ unit.top = 0 ∧ (3#12).toNat < unit.clearCode.toNat ∧ unit.oldCode = some 6 ∧
      unit.available.toNat < 4096 ∧ (unit.clearCode.toNat + 2 ≤ (6#12).toNat ∧ (6#12).toNat < unit.available.toNat) ∧
      (7#12).toNat = unit.available.toNat ∧
      (let l : Lzw := { unit with datum := 1, bits := 2, top := 0, stack := unit.stack }
       l.Good ∧ l.bits.toNat < l.codeSize.toNat) ∧
      (let l : Lzw := { unit with datum := 1, bits := 3, top := 0, stack := unit.stack }
       l.Good ∧ l.codeSize.toNat ≤ l.bits.toNat) :=
  ⟨unit_good, by decide, by decide, by decide, by decide, by decide, by decide,
    ⟨unit_good_with 1 2 0 _ (by decide) (by decide) (by decide), by decide⟩,
    unit_good_with 1 3 0 _ (by decide) (by decide) (by decide), by decide⟩

/-- A running decode with 2 of the 3 bits of a code held, `count` bytes of its block left, and the next input byte, if any, last. -/
def lzwNeeds (count : Byte) (len : Word) : State :=
  { lzwState { unit with datum := 1, bits := 2, count := count } with inLen := len }

/-- A good unit stays good whatever the rest of its block is. -/
theorem good_with_count {l : Lzw} (h : l.Good) (count : Byte) : ({ l with count := count } : Lzw).Good :=
  ⟨h.dataSize, h.clearCode, h.endCode, h.codeSize, h.available, h.width, h.oldCode, h.bits, h.datum, h.top, h.roots,
    h.entries⟩

/-- AccumulatorHoldsTheStream, LengthBytesOpenABlock: the last byte of a block that is the last of the input; and the input
used up where a data byte, or a length byte, is needed. -/
theorem test_witness_loadByte :
    (lzwNeeds 1 3).lzw.Good ∧
      ∀ s ∈ [lzwNeeds 1 3, lzwNeeds 1 2, lzwNeeds 0 2],
        s.hostMoves = false ∧ s.engine = .busy ∧ s.unit = .lzw ∧ s.lzw.dataSize ≠ 0 ∧
          s.pixCnt.toNat < s.width.toNat * s.height.toNat ∧ s.lzw.top = 0 ∧ s.lzw.bits.toNat < s.lzw.codeSize.toNat ∧
          (s.inLen = 3 ∧ s.lzw.count ≠ 0 ∧ s.inPos.toNat < s.inLen.toNat ∨ s.inLen.toNat ≤ s.inPos.toNat) :=
  ⟨good_with_count (unit_good_with 1 2 0 unit.stack (by decide) (by decide) (by decide)) 1, by decide⟩

/-- The unit with every entry in use: entry j is (0, 0). -/
def fullUnit : Lzw :=
  { unit with
    codeSize := 12
    available := 4096
    pfx := (Table.fresh 12 0).put 0 (List.replicate 4096 0)
    sfx := (Table.fresh 8 1).put 0 [0, 1, 2, 3] }

/-- FullTableEndsTheDecode: a good unit with 4096 entries in use, the largest root and the largest code. -/
theorem test_witness_full :
    fullUnit.Good ∧ fullUnit.top = 0 ∧ fullUnit.oldCode = some 6 ∧ fullUnit.available.toNat = 4096 ∧
      (3#12).toNat < fullUnit.clearCode.toNat ∧ fullUnit.clearCode.toNat + 2 ≤ (4095#12).toNat := by
  refine ⟨?_, rfl, rfl, rfl, by decide, by decide⟩
  have hr (n j : Nat) (hj : j < n) : ((Table.fresh 12 0).put 0 (List.replicate n 0)).get j = 0 := by
    simp [Table.get_put, hj]
  have hp (j : Nat) (hj : j < 4096) : fullUnit.pfx.get j = 0 := hr 4096 j hj
  exact {
    dataSize := by decide
    clearCode := by decide
    endCode := by decide
    codeSize := by decide
    available := by decide
    width := .inr rfl
    oldCode := by intro o h; cases h; exact ⟨by decide, .inr (by decide)⟩
    bits := by decide
    datum := by decide
    top := by decide
    roots := by decide
    entries := fun j h1 h2 => by
      have h1' : 6 ≤ j := h1
      unfold Lzw.entryBelow
      rw [hp j h2]
      exact ⟨show 0 < j by omega, .inl (by decide)⟩ }

/-- BadCodeFollowsThePolicy: both policies. -/
theorem test_witness_policy :
    (lzwState unit).params.badCode = .fault ∧
      ({ lzwState unit with params := { prm with badCode := .softStop } } : State).params.badCode = .softStop := by decide

/-- LengthBytesOpenABlock: the shortest and the longest block of the widest row, just present and just cut short. -/
theorem test_witness_lengths :
    0x80#8 = 0x80 + (0#7).setWidth 8 ∧ 0xFF#8 = 0x80 + (0x7F#7).setWidth 8 ∧
      (∀ len ∈ [0x80#8, 0xFF#8], ({ base with inLen := BitVec.ofNat 32 len.toNat } : State).inPos.toNat + len.toNat ≤
        ({ base with inLen := BitVec.ofNat 32 len.toNat } : State).inLen.toNat ∧
        ({ base with inLen := BitVec.ofNat 32 (len.toNat - 1) } : State).inLen.toNat <
          ({ base with inLen := BitVec.ofNat 32 (len.toNat - 1) } : State).inPos.toNat + len.toNat) := by decide

/-- A running decode with one pixel on its stack and three of its four placed. -/
def lzwPop : State := { lzwState { unit with datum := 0, bits := 0, top := 1, stack := ⟨2, [(0, 3)]⟩ } with pixCnt := 3 }

theorem lzwPop_inv : Inv lzwPop where
  params := by decide
  mem := by decide
  status := ⟨by decide, by decide, fun _ => .inl rfl⟩
  lzw := fun _ _ =>
    { check := ⟨by decide, by decide, by decide, by decide⟩
      fmt := by decide
      pos := by decide
      pix := by decide
      good := fun _ => unit_good_with 0 0 1 ⟨2, [(0, 3)]⟩ (by decide) (by decide) (by decide)
      block := fun _ => by decide }
  png := fun _ h => by cases h

/-- PopPlacesOnePixel: the last pixel of the image. PixelCountEndsTheDecode: the same decode with all four placed, and a step
that ends with another reason. -/
theorem test_witness_pixels :
    (Inv lzwPop ∧ lzwPop.engine = .busy ∧ lzwPop.unit = .lzw ∧ lzwPop.hostMoves = false ∧ lzwPop.lzw.dataSize ≠ 0 ∧
      lzwPop.lzw.top ≠ 0 ∧ lzwPop.pixCnt.toNat < lzwPop.width.toNat * lzwPop.height.toNat) ∧
    ({ lzwPop with pixCnt := 4 } : State).pixCnt.toNat = lzwPop.width.toNat * lzwPop.height.toNat ∧
    nextOf (step { lzwPop with pixCnt := 4 }) (fun t => t.engine) = some .done ∧
    nextOf (step (lzwState { unit with datum := 5, bits := 3 })) (fun t => (t.engine, t.endReason)) =
      some (.done, .endCode) :=
  ⟨⟨lzwPop_inv, by decide⟩, by decide⟩

/-- A legal PNG configuration in IDLE: RGB with alpha, 16 bits. -/
def pngIdle : State := { base with width := 2, height := 512, inFmt := ⟨16, 6, false⟩, inLen := 4096 }

/-- PngStartInitialises, PngStartChecksItsConfiguration: a mask that just fits, and configurations that just do not. -/
theorem test_witness_pngStart :
    pngIdle.engine = .idle ∧ PngLegal pngIdle 4 ∧ pngIdle.params.legal = true ∧
      (∀ bands, ¬ PngLegal { pngIdle with height := 513 } bands) ∧
      (∀ bands, ¬ PngLegal { pngIdle with inLen := 4097 } bands) ∧
      ∀ bands, ¬ PngLegal { pngIdle with width := 0 } bands :=
  ⟨rfl, ⟨by decide, by decide, by decide, by decide, by decide, by decide⟩, by decide,
    fun _ h => absurd h.fitsMask (by decide), fun _ h => absurd h.input (by decide), fun _ h => absurd h.size (by decide)⟩

/-- The second row of pngBusy, which is the last of its only pass. -/
def pngLast : State := pngState 2 2 false 1 2 2 1 2 [4, 7, 8]

/-- The only row of pass 1 of a 3x3 image, after which pass 4 comes. -/
def pngPass : State := pngState 3 3 true 1 1 1 0 0 [0, 0x0B]

/-- FiltersReconstructTheRow, RowsFollowOneAnother, RowsPlaceTheirSamples: a row followed by another, the last row of a pass
and the last row of the image, each with its input just present. -/
theorem test_witness_rows :
    (PngRun pngBusy ∧ PngRun pngLast ∧ PngRun pngPass) ∧
      (∀ s ∈ [pngBusy, pngLast, pngPass], s.params.legal = true ∧ s.engine = .busy) ∧
      (pngBusy.png.srcY.toNat + 1 < pngBusy.png.passHeight.toNat ∧
        pngBusy.inPos.toNat + pngBusy.png.rowBytes.toNat ≤ pngBusy.inLen.toNat) ∧
      (pngLast.png.srcY.toNat + 1 = pngLast.png.passHeight.toNat ∧
        pngLast.inPos.toNat + pngLast.png.rowBytes.toNat ≤ pngLast.inLen.toNat ∧
        nextOf (exec .filterPaeth pngLast) (fun t => t.engine) = some .done) ∧
      (pngPass.png.srcY.toNat + 1 = pngPass.png.passHeight.toNat ∧
        pngPass.inPos.toNat + pngPass.png.rowBytes.toNat ≤ pngPass.inLen.toNat ∧
        nextOf (exec .filterNone pngPass) (fun t => t.engine) = some .busy) :=
  ⟨⟨pngBusy_run, pngState_run _ _ _ _ _ _ _ _ _ (by decide), pngState_run _ _ _ _ _ _ _ _ _ (by decide)⟩, by decide⟩

/-- A running decode of one pixel: color type, depth, bands, alpha, bytes per pixel and per row, and its row. -/
def pngOne (ct bd bands : Nat) (alpha : Bool) (bpp n : Nat) (input : List Nat) : State :=
  { base with
    engine := .busy
    unit := .png
    width := 1
    height := 1
    inFmt := ⟨BitVec.ofNat 5 bd, BitVec.ofNat 3 ct, false⟩
    outFmt := pngOutFmt ct bd
    inLen := BitVec.ofNat 32 input.length
    png := { Png.reset with
      bands := BitVec.ofNat 3 bands
      alpha := alpha
      bpp := BitVec.ofNat 4 bpp
      pass := 1
      passWidth := 1
      passHeight := 1
      rowBytes := BitVec.ofNat 32 n
      prior := ⟨4, cellsAt 0 (List.replicate n 0)⟩ }
    mem := cells 0x10000000 input ++ cells 0x20000000 [0, 0, 0] }

/-- RowsPlaceTheirSamples: 16-bit samples with alpha, and samples of one bit. -/
theorem test_witness_samples_placed :
    PngRun (pngOne 6 16 4 true 8 8 [1, 2, 3, 4, 5, 6, 7, 8]) ∧ PngRun (pngOne 0 1 1 false 1 1 [0x80]) ∧
      (pngOne 6 16 4 true 8 8 [1, 2, 3, 4, 5, 6, 7, 8]).params.legal = true ∧
      (∃ t, exec .filterSub (pngOne 6 16 4 true 8 8 [1, 2, 3, 4, 5, 6, 7, 8]) = .next t) ∧
      ∃ t, exec .filterSub (pngOne 0 1 1 false 1 1 [0x80]) = .next t := by
  refine ⟨?_, ?_, by decide, ⟨_, rfl⟩, ⟨_, rfl⟩⟩ <;>
    exact {
      check := ⟨by decide, by decide, by decide, by decide, by decide, by decide⟩
      fmt := by decide
      alpha := by decide
      bpp := by decide
      pass := by decide
      passWidth := by decide
      passHeight := by decide
      nonempty := by decide
      rowBytes := by decide
      srcY := by decide
      pos := by decide
      pix := by decide }

theorem pngLast_inv : Inv pngLast where
  params := by decide
  mem := by decide
  status := ⟨by decide, by decide, fun _ => .inr rfl⟩
  lzw := fun _ h => by cases h
  png := fun _ _ => pngState_run _ _ _ _ _ _ _ _ _ (by decide)

/-- RowsDonePlacesEveryPixel: the last row of the image. -/
theorem test_witness_rowsDone :
    Inv pngLast ∧ pngLast.engine = .busy ∧ pngLast.unit = .png ∧
      nextOf (step pngLast) (fun t => (t.engine, t.unit)) = some (.done, .png) := ⟨pngLast_inv, by decide⟩

/-- Adam7CoversEveryPixelOnce: the last pixel of a 3x3 image. -/
theorem test_witness_adam7 : ∃ w h x y : Nat, (w, h) = (3, 3) ∧ x < w ∧ y < h := ⟨3, 3, 2, 2, rfl, by decide, by decide⟩

/-- ShortRowFaults: one byte missing, and the input used up where a filter byte is needed. -/
theorem test_witness_short :
    pngPass.inLen.toNat < ({ pngPass with inPos := 2 } : State).inPos.toNat + pngPass.png.rowBytes.toNat ∧
      (let s : State := { pngPass with inPos := 2 }
       s.hostMoves = false ∧ s.engine = .busy ∧ s.unit = .png ∧ s.inLen.toNat ≤ s.inPos.toNat) := by decide

/-- RefusedAccessIsABusError: offset 0x40, a misaligned register, a byte past each window, a byte access to a register. -/
theorem test_witness_refused :
    base.params.legal = true ∧
      ∀ op ∈ [(⟨false, 32, 0x40, 0⟩ : BusOp), ⟨true, 32, 2, 0⟩, ⟨false, 8, 0x10001000, 0⟩, ⟨true, 8, 0x20001000, 0⟩,
          ⟨false, 8, 0x30000400, 0⟩, ⟨false, 8, 4, 0⟩, ⟨true, 16, 0x20000000, 0⟩],
        ({ base with inbox := [.bus op] } : State).hostMoves = true ∧
          ¬ (op.bits = 32 ∧ op.addr.toNat % 4 = 0 ∧ op.addr.toNat ≤ 0x3C) ∧
          ¬ (op.bits = 8 ∧
            ((0x10000000 ≤ op.addr.toNat ∧ op.addr.toNat < 0x10000000 + base.params.inbufBytes) ∨
              (0x20000000 ≤ op.addr.toNat ∧ op.addr.toNat < 0x20000000 + base.params.outbufBytes) ∨
              (0x30000000 ≤ op.addr.toNat ∧ op.addr.toNat < 0x30000000 + base.params.maskbufBytes))) := by decide

/-- ReadsHaveNoSideEffects: the first and last register in IDLE, the last but one while BUSY, the first byte of INBUF while
BUSY, and the last bytes of OUTBUF and MASKBUF in IDLE. -/
theorem test_witness_reads :
    (∀ bits ∈ [8, 32], ∀ addr ∈ [0x00#32, 0x3C#32, 0x20000FFF#32, 0x300003FF#32],
      ({ base with inbox := [.bus ⟨false, bits, addr, 0⟩] } : State).hostMoves = true) ∧ base.engine ≠ .busy ∧
      base.params.legal = true ∧
      (∀ addr ∈ [0x00#32, 0x38#32, 0x3C#32], addr.toNat % 4 = 0 ∧ addr.toNat ≤ 0x3C) ∧ (0x38#32).toNat ≠ 0x3C ∧
      (0x20000000 ≤ (0x20000FFF#32).toNat ∧ (0x20000FFF#32).toNat < 0x20000000 + base.params.outbufBytes) ∧
      (0x30000000 ≤ (0x300003FF#32).toNat ∧ (0x300003FF#32).toNat < 0x30000000 + base.params.maskbufBytes) ∧
      (0x10000000 ≤ (0x10000000#32).toNat ∧ (0x10000000#32).toNat < 0x10000000 + lzwBusy.params.inbufBytes) ∧
      lzwBusy.params.legal = true ∧
      ∀ op ∈ [(⟨false, 32, 0x3C, 0⟩ : BusOp), ⟨false, 32, 0x38, 0⟩, ⟨false, 8, 0x10000000, 0⟩],
        ({ lzwBusy with inbox := [.bus op], hostNext := true } : State).hostMoves = true :=
  ⟨by simp [State.hostMoves, State.isBusy, base, State.reset], by decide, by decide, by simp, by decide, by decide, by decide, by decide, by decide, by decide⟩

/-- BusyWritesAreDropped: the first and last held registers, the first and last byte of a window, and IRQ_EN. -/
theorem test_witness_busy :
    lzwBusy.engine = .busy ∧ lzwBusy.params.legal = true ∧
      ({ lzwBusy with inbox := [.bus ⟨true, 32, 0x0C, 9⟩], hostNext := true } : State).hostMoves = true ∧
      (0x0C#32).toNat ∈ [0x0C, 0x10, 0x14, 0x18, 0x20, 0x2C, 0x30, 0x34, 0x38] ∧
      (0x38#32).toNat ∈ [0x0C, 0x10, 0x14, 0x18, 0x20, 0x2C, 0x30, 0x34, 0x38] ∧
      (0x30000000 ≤ (0x30000000#32).toNat ∧ (0x300003FF#32).toNat < 0x30000000 + lzwBusy.params.maskbufBytes) ∧
      (0x08#32).toNat = 0x08 := by decide

/-- PowerOnResetsEveryRegister: in FAULT, and while BUSY with the host's turn. -/
theorem test_witness_powerOn :
    (faultState .powerOn).inbox = .powerOn :: [] ∧ (faultState .powerOn).hostMoves = true ∧
      ({ lzwBusy with inbox := [.powerOn], hostNext := true } : State).hostMoves = true := by decide

/-- WritesTakeEffect: in IDLE, each kind of stored bits, the first and last read-only register, and the first and last byte
of a window; a step that stores and one that ignores. -/
theorem test_witness_writes :
    base.engine ≠ .busy ∧ base.params.legal = true ∧
      (∀ p ∈ [((0x08#32).toNat, 1#32), ((0x14#32).toNat, 0x0001071F#32), ((0x38#32).toNat, 0xFFFFFFFF#32)],
        p ∈ ([(0x08, 1), (0x0C, 0xFFFFFFFF), (0x10, 0xFFFFFFFF), (0x14, 0x0001071F), (0x18, 0x0001071F),
          (0x20, 0xFFFFFFFF), (0x2C, 0xFFFFFFFF), (0x30, 0xFFFFFFFF), (0x34, 0xFFFFFFFF), (0x38, 0xFFFFFFFF)] :
          List (Nat × Word))) ∧
      (∀ addr ∈ [0x04#32, 0x3C#32], addr.toNat ∈ [0x04, 0x1C, 0x24, 0x28, 0x3C]) ∧
      0x10000000 ≤ (0x10000000#32).toNat ∧ (0x10000FFF#32).toNat < 0x10000000 + base.params.inbufBytes :=
  ⟨by decide, by decide, by simp, by simp, by decide, by decide⟩

/-- 10_state.md R28: a write of ones to OUT_FMT stores its three fields. -/
theorem test_write_outFmt :
    nextOf (step { base with inbox := [.bus ⟨true, 32, 0x18, 0xFFFFFFFF⟩] }) (fun t => readReg t 0x18) =
      some 0x0001071F := by decide

/-- 42_lzw.md R165, R167: the data byte 8C loaded above the bits 01 held. -/
theorem test_loadByte :
    nextOf (step (lzwNeeds 1 3)) (fun t => (t.lzw.datum, t.lzw.bits)) = some (0x231, 10) ∧
      nextOf (step (lzwNeeds 1 3)) (fun t => (t.lzw.count, t.inPos)) = some (0, 3) := ⟨rfl, rfl⟩

end Sys2Proof.Tests
end

/-! ## The scope of the model (00_scope.md): the state after reset and the parameters -/

/-! ### The state after reset -/

namespace Sys2Proof

/-- The ranges that 00_scope.md R6 gives the parameters, as inequalities. -/
theorem Params.legal_iff (p : Params) :
    p.legal = true ↔ (1 ≤ p.inbufBytes ∧ p.inbufBytes ≤ 2 ^ 28) ∧ (1 ≤ p.outbufBytes ∧ p.outbufBytes ≤ 2 ^ 28) ∧
      p.maskbufBytes ≤ 2 ^ 28 ∧ 1 ≤ p.rowbufBytes := by
  simp only [Params.legal, Bool.and_eq_true, decide_eq_true_eq, and_assoc]

/-- Whatever sizes the opaque parameters have, they are legal: each is drawn from its range. -/
theorem Config.params_legal : Config.params.legal = true := by
  have hin := Config.inbufSize.isLt
  have hout := Config.outbufSize.isLt
  have hmask := Config.maskbufSize.isLt
  rw [Params.legal_iff]
  simp only [Config.params]
  omega

end Sys2Proof

namespace Sys2Proof.Machine

/-- STATUS after reset: IDLE, without a fault code or an end reason (70_reset_and_hazards.md R292). -/
theorem reset_statusOK : StatusOK State.reset where
  fault := by simp [State.reset]
  ended := by simp [State.reset]
  running := by simp [State.reset]

/-- Settles O2: no unit runs after reset, so only the parameters, the empty memory and STATUS have something to show. -/
theorem resetMeetsInvariant : Obligations.ResetMeetsInvariant where
  params := Config.params_legal
  mem := reset_mem_wf
  status := reset_statusOK
  lzw := by simp [State.reset]
  png := by simp [State.reset]

/-! ### The parameters under the operations that the instructions share -/

@[simp] theorem scrambleOutput_params (s : State) : (scrambleOutput s).params = s.params := by
  rw [scrambleOutput_eq]

@[simp] theorem scrambleCounters_params (s : State) : (scrambleCounters s).params = s.params := rfl

@[simp] theorem powerOnReset_params (s : State) : (powerOnReset s).params = s.params := rfl

@[simp] theorem lzwInit_params (s : State) : (lzwInit s).params = s.params := rfl

@[simp] theorem popPixel_params (s : State) : (popPixel s).params = s.params := setPixel_params ..

@[simp] theorem lzwHeader_params (s : State) : (lzwHeader s).params = s.params := by
  rcases lzwHeader_cases s with ⟨-, h⟩ | ⟨ds, -, -, ⟨-, h⟩ | ⟨-, -, h⟩⟩ <;> rw [h] <;> rfl

@[simp] theorem enterPass_params (pass : Nat) (s : State) : (enterPass pass s).params = s.params := by
  rcases enterPass_cases pass s with ⟨p, -, h⟩ | ⟨-, h⟩ <;> rw [h] <;> rfl

@[simp] theorem advanceRow_params (s : State) : (advanceRow s).params = s.params := by rw [advanceRow_eq]

@[simp] theorem placeRow_params (row : List Byte) (s : State) : (placeRow row s).params = s.params := by
  rw [placeRow_eq]

@[simp] theorem pngInit_params (s : State) : (pngInit s).params = s.params := by
  unfold pngInit
  dsimp only
  split <;> rfl

@[simp] theorem storeReg_params (s : State) (offset : Nat) (v : Word) : (storeReg s offset v).params = s.params := by
  simp only [storeReg, apply_ite State.params, ite_self]

@[simp] theorem busAccess_params (op : BusOp) (s : State) : (busAccess op s).params = s.params := by
  obtain ⟨r, t, h, ht⟩ := busAccess_cases op s
  rw [h, respond_params]
  rcases ht with rfl | ⟨-, rfl⟩ | ⟨offset, -, rfl⟩ | ⟨-, sp, i, -, rfl⟩
  · rfl
  · exact refuse_params s
  · exact storeReg_params ..
  · exact poke_params ..

/-! ### The parameters under the instructions -/

/-- A meaning run in state `s` answers no state with other parameters. -/
def KeepsParams (s : State) : Result → Prop
  | .next t => t.params = s.params
  | .fault _ => True
  | .refused _ => True

@[simp] theorem keepsParams_next (s t : State) : KeepsParams s (.next t) ↔ t.params = s.params := Iff.rfl
@[simp] theorem keepsParams_fault (s : State) (f : Fault) : KeepsParams s (.fault f) := trivial

theorem execReset_keepsParams (s : State) : KeepsParams s (execReset s) := by
  unfold execReset
  split <;> simp

theorem execAbort_keepsParams (s : State) : KeepsParams s (execAbort s) := by
  unfold execAbort
  split_ifs <;> simp

theorem execPbClear_keepsParams (s : State) : KeepsParams s (execPbClear s) := by
  unfold execPbClear
  split_ifs <;> simp

theorem execPbSet_keepsParams (s : State) : KeepsParams s (execPbSet s) := by
  unfold execPbSet
  split_ifs <;> simp

theorem execPbGet_keepsParams (s : State) : KeepsParams s (execPbGet s) := by
  unfold execPbGet
  split_ifs <;> simp

theorem execLzwStart_keepsParams (s : State) : KeepsParams s (execLzwStart s) := by
  unfold execLzwStart
  split_ifs <;> simp

theorem execPngStart_keepsParams (s : State) : KeepsParams s (execPngStart s) := by
  unfold execPngStart
  split_ifs <;> simp

theorem execLzwBad_keepsParams (code : BitVec 12) (s : State) : KeepsParams s (execLzwBad code s) := by
  unfold execLzwBad
  split <;> simp

theorem execLzwFirst_keepsParams (code : BitVec 12) (s : State) : KeepsParams s (execLzwFirst code s) := by
  unfold execLzwFirst
  split <;> simp

/-- KWKWK, LIT and DICT: every branch of `decodeStep` stops or goes on with another LZW unit only. -/
theorem decodeStep_keepsParams (code : BitVec 12) (s : State) : KeepsParams s (decodeStep code s) := by
  unfold decodeStep
  split
  · simp
  split
  · simp
  dsimp only
  split
  · simp
  split <;> simp

theorem openSubBlock_keepsParams (len : Nat) (s : State) : KeepsParams s (openSubBlock len s) := by
  unfold openSubBlock
  split <;> simp

theorem filterRow_keepsParams (pred : Predictor) (s : State) : KeepsParams s (filterRow pred s) := by
  unfold filterRow
  split <;> simp

/-- No instruction changes the parameters, by the meaning each constructor has. -/
theorem exec_keepsParams (i : Instr) (s : State) : KeepsParams s (exec i s) := by
  cases i with
  | nop => exact rfl
  | reset => exact execReset_keepsParams s
  | abort => exact execAbort_keepsParams s
  | pbClear => exact execPbClear_keepsParams s
  | pbSet => exact execPbSet_keepsParams s
  | pbGet => exact execPbGet_keepsParams s
  | lzwStart => exact execLzwStart_keepsParams s
  | pngStart => exact execPngStart_keepsParams s
  | cmdReservedOp | cmdReservedRsvdB4 | cmdReservedRsvdB5 | cmdReservedRsvdB6 | cmdReservedRsvdB7
  | cmdReservedRsvdB8 | cmdReservedRsvdB9 | cmdReservedRsvdB10 | cmdReservedRsvdB11 | cmdReservedRsvdB12
  | cmdReservedRsvdB13 | cmdReservedRsvdB14 | cmdReservedRsvdB15 | cmdReservedRsvdB16 | cmdReservedRsvdB17
  | cmdReservedRsvdB18 | cmdReservedRsvdB19 | cmdReservedRsvdB20 | cmdReservedRsvdB21 | cmdReservedRsvdB22
  | cmdReservedRsvdB23 | cmdReservedRsvdB24 | cmdReservedRsvdB25 | cmdReservedRsvdB26 | cmdReservedRsvdB27
  | cmdReservedRsvdB28 | cmdReservedRsvdB29 | cmdReservedRsvdB30 | cmdReservedRsvdB31 => exact refuse_params s
  | lzwClear => exact rfl
  | lzwEnd => exact finish_params _ s
  | lzwBad code => exact execLzwBad_keepsParams code s
  | lzwFirst code => exact execLzwFirst_keepsParams code s
  | lzwKwkwk code | lzwLit code | lzwDict code => exact decodeStep_keepsParams code s
  | sbTerm => exact finish_params _ _
  | sbData01 | sbData02 | sbData04 | sbData08 | sbData10 | sbData20 | sbData40 | sbData80 =>
    exact openSubBlock_keepsParams _ s
  | filterNone | filterSub | filterUp | filterAvg | filterPaeth => exact filterRow_keepsParams _ s
  | filterReserved05 | filterReserved06 | filterReserved08 | filterReserved10 | filterReserved20
  | filterReserved40 | filterReserved80 => exact raise_params _ s

/-! ### The parameters under a step -/

/-- What a step finds to do in state `s` leaves the parameters as they are. -/
def Fetched.KeepsParams (s : State) : Fetched → Prop
  | .word _ u => u.params = s.params
  | .work u => u.params = s.params
  | .wait => True
  | .stuck _ => True

theorem fetchHost_keepsParams (s : State) : (fetchHost s).KeepsParams s := by
  unfold fetchHost
  split
  · trivial
  · exact powerOnReset_params _
  · split
    · exact respond_params ..
    · exact busAccess_params ..

theorem readByte?_params {s t : State} {b : Byte} (h : readByte? s = some (b, t)) : t.params = s.params := by
  obtain ⟨-, -, rfl⟩ := (readByte?_some s t b).1 h
  rfl

theorem fetchLzw_keepsParams (s : State) : (fetchLzw s).KeepsParams s := by
  unfold fetchLzw
  split
  · exact lzwHeader_params s
  split
  · exact finish_params _ s
  split
  · exact popPixel_params s
  split
  · cases hr : readByte? s with
    | none => exact raise_params _ s
    | some p =>
      have hp : p.2.params = s.params := readByte?_params hr
      dsimp only
      split <;> exact hp
  · exact rfl

theorem fetchPng_keepsParams (s : State) : (fetchPng s).KeepsParams s := by
  unfold fetchPng
  split
  · exact raise_params _ s
  · rename_i hr
    exact readByte?_params hr

theorem fetchEngine_keepsParams (s : State) : (fetchEngine s).KeepsParams s := by
  unfold fetchEngine
  split
  · exact fetchLzw_keepsParams s
  · exact fetchPng_keepsParams s
  · trivial
  · trivial

theorem fetch_keepsParams (s : State) : (fetch s).KeepsParams s := by
  unfold fetch
  split_ifs
  · exact fetchHost_keepsParams s
  · exact fetchEngine_keepsParams s
  · trivial

/-- Settles O9: neither what a step reads or does on its own nor the instruction it executes writes the parameters. -/
theorem parametersNeverChange : Obligations.ParametersNeverChange := by
  intro s t h
  have hf := fetch_keepsParams s
  rcases step_cases s t h with ⟨e, s1, u, hw, he, rfl⟩ | ⟨u, hw, rfl⟩ | ⟨-, rfl⟩
  · have hx := exec_keepsParams (decode s.lzw.ctx e) s1
    rw [hw] at hf
    rw [he] at hx
    calc (tick u).params = u.params := tick_params u
      _ = s1.params := hx
      _ = s.params := hf
  · rw [hw] at hf
    exact hf
  · rfl

end Sys2Proof.Machine

/-! ## The state of the machine (10_state.md): its invariant and its registers -/

/-! ### The LZW unit: each operation keeps the ranges of R41 and the dictionary of R42 -/

namespace Sys2Proof.Machine

theorem two_pow_bounds_of_dataSize {ds : Nat} (hlo : 2 ≤ ds) (hhi : ds ≤ 8) : 4 ≤ 2 ^ ds ∧ 2 ^ ds ≤ 256 :=
  ⟨Nat.pow_le_pow_right (n := 2) (by decide) hlo, Nat.pow_le_pow_right (n := 2) (by decide) hhi⟩

/-- A table whose first `n` entries were written one per index reads them back. -/
theorem Table.get_put_map_range {w : Nat} (t : Table w) (n : Nat) (f : Nat → BitVec w) {i : Nat} (hi : i < n) :
    (t.put 0 ((List.range n).map f)).get i = f i := by
  simp [Table.get_put, hi]

/-- `lzwHeader` opens a unit with the roots alone (42_lzw.md R164). -/
theorem lzwOpen_good (ds gen : Nat) (l : Lzw) (hlo : 2 ≤ ds) (hhi : ds ≤ 8) : (lzwOpen ds gen l).Good := by
  obtain ⟨hp4, hp256⟩ := two_pow_bounds_of_dataSize hlo hhi
  have hds : (lzwOpen ds gen l).dataSize.toNat = ds := by simp only [lzwOpen, BitVec.toNat_ofNat]; omega
  have hcc : (lzwOpen ds gen l).clearCode.toNat = 2 ^ ds := by simp only [lzwOpen, BitVec.toNat_ofNat]; omega
  have hec : (lzwOpen ds gen l).endCode.toNat = 2 ^ ds + 1 := by
    simp only [lzwOpen, BitVec.toNat_ofNat]; omega
  have hcs : (lzwOpen ds gen l).codeSize.toNat = ds + 1 := by simp only [lzwOpen, BitVec.toNat_ofNat]; omega
  have hav : (lzwOpen ds gen l).available.toNat = 2 ^ ds + 2 := by
    simp only [lzwOpen, BitVec.toNat_ofNat]; omega
  exact {
    dataSize := by omega
    clearCode := by rw [hds, hcc]
    endCode := by rw [hds, hec]
    codeSize := by omega
    available := by omega
    width := .inl (by rw [hav, hcs, pow_succ]; omega)
    oldCode := fun o ho => by simp [lzwOpen] at ho
    bits := by simp [lzwOpen]
    datum := by simp [lzwOpen]
    top := by simp [lzwOpen]
    roots := fun r hr => by
      rw [hcc] at hr
      rw [lzwOpen, Table.get_put_map_range _ _ _ hr, BitVec.toNat_ofNat]
      omega
    entries := fun j h1 h2 => by omega }

/-- The data held in the accumulator stays below the bits held (30_encoding.md R85). -/
theorem Lzw.Good.loadByte {l : Lzw} (h : l.Good) (b : Byte) (hb : l.bits.toNat < l.codeSize.toNat) :
    (l.loadByte b).Good := by
  have hcs := h.codeSize.2
  have hd := h.datum
  have hbits : (l.loadByte b).bits.toNat = l.bits.toNat + 8 := by
    simp only [Lzw.loadByte, BitVec.toNat_add, BitVec.ofNat_eq_ofNat, BitVec.toNat_ofNat]; omega
  have hpow : 2 ^ (l.bits.toNat + 8) ≤ 2 ^ 19 := Nat.pow_le_pow_right (by decide) (by omega)
  have hshift : b.toNat * 2 ^ l.bits.toNat + 2 ^ l.bits.toNat ≤ 2 ^ (l.bits.toNat + 8) := by
    calc b.toNat * 2 ^ l.bits.toNat + 2 ^ l.bits.toNat
        = (b.toNat + 1) * 2 ^ l.bits.toNat := by ring
      _ ≤ 2 ^ 8 * 2 ^ l.bits.toNat := Nat.mul_le_mul_right _ b.isLt
      _ = 2 ^ (l.bits.toNat + 8) := by rw [pow_add, mul_comm]
  have hdatum : (l.loadByte b).datum.toNat ≤ l.datum.toNat + b.toNat * 2 ^ l.bits.toNat := by
    simp only [Lzw.loadByte, BitVec.toNat_add, BitVec.toNat_shiftLeft, BitVec.toNat_setWidth, Nat.shiftLeft_eq]
    have hb8 := b.isLt
    rw [Nat.mod_eq_of_lt (show b.toNat < 2 ^ 19 by omega)]
    exact (Nat.mod_le _ _).trans (Nat.add_le_add_left (Nat.mod_le _ _) _)
  exact { h with
    bits := by rw [hbits]; omega
    datum := by rw [hbits]; omega }

/-- Taking a code leaves the bits after it (30_encoding.md R85). -/
theorem Lzw.Good.dropCode {l : Lzw} (h : l.Good) (hb : l.codeSize.toNat ≤ l.bits.toNat) : l.dropCode.Good := by
  have hcs := h.codeSize.2
  have hle := h.bits
  have hbits : l.dropCode.bits.toNat = l.bits.toNat - l.codeSize.toNat := by
    simp only [Lzw.dropCode, BitVec.toNat_sub, BitVec.toNat_setWidth]; omega
  have hdatum : l.dropCode.datum.toNat < 2 ^ (l.bits.toNat - l.codeSize.toNat) := by
    simp only [Lzw.dropCode, BitVec.toNat_ushiftRight, Nat.shiftRight_eq_div_pow]
    rw [Nat.div_lt_iff_lt_mul (by positivity), ← pow_add, Nat.sub_add_cancel hb]
    exact h.datum
  exact { h with
    bits := by rw [hbits]; omega
    datum := by rw [hbits]; exact hdatum }

/-- CLEAR leaves the roots alone, at the width they need (42_lzw.md R170). -/
theorem Lzw.Good.clear {l : Lzw} (h : l.Good) :
    ({ l with codeSize := l.dataSize + 1, available := l.clearCode.setWidth 13 + 2, oldCode := none } : Lzw).Good := by
  obtain ⟨hlo, hhi⟩ := h.dataSize
  obtain ⟨hp4, hp256⟩ := two_pow_bounds_of_dataSize hlo hhi
  have hcc := h.clearCode
  have hcs : (l.dataSize + 1).toNat = l.dataSize.toNat + 1 := by
    simp only [BitVec.toNat_add, BitVec.ofNat_eq_ofNat, BitVec.toNat_ofNat]; omega
  have hav : (l.clearCode.setWidth 13 + 2).toNat = l.clearCode.toNat + 2 := by
    simp only [BitVec.toNat_add, BitVec.toNat_setWidth, BitVec.ofNat_eq_ofNat, BitVec.toNat_ofNat]; omega
  exact { h with
    codeSize := by dsimp only; omega
    available := by dsimp only; omega
    width := .inl (by dsimp only; rw [hav, hcs, pow_succ]; omega)
    oldCode := fun o ho => by cases ho
    entries := fun j h1 h2 => by dsimp only at h1 h2; omega }

/-- A push is on a stack that is not full, which it leaves within its depth (10_state.md R43). -/
theorem Lzw.push?_some {l m : Lzw} {v : Byte} (hp : l.push? v = some m) :
    l.SameDict m ∧ m.top.toNat ≤ Config.lzwStackEntries := by
  have hlt : l.top.toNat < Config.lzwStackEntries := by
    by_contra hfull
    rw [(l.push?_none v).2 (by omega)] at hp
    cases hp
  obtain ⟨m', hm', hs, ht, -⟩ := l.push?_spec v hlt
  rw [hp] at hm'
  cases hm'
  exact ⟨hs, by omega⟩

/-- The unit stays good when only its stack changes, within its depth. -/
theorem Lzw.Good.of_sameDict {l m : Lzw} (h : l.Good) (hs : l.SameDict m)
    (ht : m.top.toNat ≤ Config.lzwStackEntries) : m.Good := by
  rw [hs]
  exact { h with top := ht }

/-- FIRST makes a root the previous code (42_lzw.md R172). -/
theorem Lzw.Good.first {l : Lzw} (h : l.Good) (code : BitVec 12) (v : Byte) (hc : code.toNat < l.clearCode.toNat) :
    ({ l with oldCode := some code, first := v } : Lzw).Good :=
  { h with
    oldCode := fun o ho => by
      cases ho
      exact ⟨by have := h.available.1; dsimp only; omega, .inl hc⟩ }

/-- The width after the growth check of 42_lzw.md R168 holds the code of the next free slot. -/
theorem Lzw.grow_codeSize {l : Lzw} (hcs : l.codeSize.toNat ≤ 12) (ha : l.available.toNat ≤ 4096)
    (hw : l.available.toNat ≤ 2 ^ l.codeSize.toNat) :
    l.codeSize.toNat ≤ l.grow.codeSize.toNat ∧ l.grow.codeSize.toNat ≤ 12 ∧
      (l.available.toNat < 2 ^ l.grow.codeSize.toNat ∨ l.available.toNat = 4096) := by
  rw [l.grow_spec.2]
  split
  · next hfull =>
    have hlt : l.codeSize.toNat < 12 := (Nat.pow_lt_pow_iff_right (a := 2) (by decide)).1 (by omega)
    have hsucc : (l.codeSize + 1).toNat = l.codeSize.toNat + 1 := by
      simp only [BitVec.toNat_add, BitVec.ofNat_eq_ofNat, BitVec.toNat_ofNat]; omega
    have hpos := Nat.two_pow_pos l.codeSize.toNat
    rw [hsucc, pow_succ]
    omega
  · omega

/-- The unit with the entry (previous code, first pixel) in the free slot, before the growth check (42_lzw.md R173). -/
def Lzw.withEntry (l : Lzw) (old : BitVec 12) : Lzw :=
  { l with
    pfx := l.pfx.put l.available.toNat [old]
    sfx := l.sfx.put l.available.toNat [l.first]
    available := l.available + 1 }

theorem Lzw.addEntry_eq (l : Lzw) (old code : BitVec 12) :
    l.addEntry old code = { (l.withEntry old) with codeSize := (l.withEntry old).grow.codeSize, oldCode := some code } :=
  congrArg (fun m : Lzw => { m with oldCode := some code }) (l.withEntry old).grow_spec.1

theorem Lzw.withEntry_available {l : Lzw} (old : BitVec 12) (ha : l.available.toNat < 4096) :
    (l.withEntry old).available.toNat = l.available.toNat + 1 := by
  simp only [Lzw.withEntry, BitVec.toNat_add, BitVec.ofNat_eq_ofNat, BitVec.toNat_ofNat]; omega

/-- A new entry keeps the dictionary: its parent is the previous code, an older entry or a root (42_lzw.md R173). -/
theorem Lzw.Good.addEntry {l : Lzw} (h : l.Good) {old code : BitVec 12} (hold : l.oldCode = some old)
    (ha : l.available.toNat < 4096) (hcode : l.entryBelow (l.available.toNat + 1) code) :
    (l.addEntry old code).Good := by
  have hav := Lzw.withEntry_available old ha
  have hwidth : l.available.toNat < 2 ^ l.codeSize.toNat := h.width.resolve_right (by omega)
  obtain ⟨hge, hle, hfits⟩ := Lzw.grow_codeSize (l := l.withEntry old) h.codeSize.2 (by omega) (by rw [hav]; exact hwidth)
  have hfree := h.available.1
  rw [Lzw.addEntry_eq]
  exact { h with
    codeSize := ⟨h.codeSize.1.trans hge, hle⟩
    available := ⟨by rw [hav]; exact hfree.trans (Nat.le_succ _), by rw [hav]; exact ha⟩
    width := hfits
    oldCode := fun o ho => by
      cases ho
      rw [hav]
      exact hcode
    roots := fun r hr => by
      have hne : r ≠ l.available.toNat := by have : r < l.clearCode.toNat := hr; omega
      exact (congrArg _ (Table.get_put_ne _ _ _ _ hne)).trans (h.roots r hr)
    entries := fun j h1 h2 => by
      rw [hav] at h2
      rcases eq_or_ne j l.available.toNat with rfl | hne
      · rw [Lzw.withEntry, Table.get_put_one]
        exact h.oldCode old hold
      · rw [Lzw.withEntry, Table.get_put_ne _ _ _ _ hne]
        exact h.entries j h1 (by omega) }

/-- The walk up an entry's parents only pushes (42_lzw.md R173). -/
theorem walkPrefix_sameDict {root : BitVec 12} {m : Lzw} : ∀ {fuel : Nat} {code : BitVec 12} {l : Lzw},
    walkPrefix fuel code l = some (root, m) → l.SameDict m
  | 0, _, _, hw => by simp [walkPrefix] at hw
  | fuel + 1, code, _, hw => by
    rw [walkPrefix] at hw
    split at hw
    · obtain ⟨k, hpush, hrest⟩ := Option.bind_eq_some_iff.1 hw
      exact (Lzw.push?_some hpush).1.trans (walkPrefix_sameDict hrest)
    · cases hw
      exact .refl _

/-- The start of the walk of a data code pushes at most the last first pixel. -/
theorem Lzw.walkStart?_sameDict {l m : Lzw} {old code start : BitVec 12} (hw : l.walkStart? old code = some (start, m)) :
    l.SameDict m := by
  unfold Lzw.walkStart? at hw
  split at hw
  · obtain ⟨k, hpush, he⟩ := Option.map_eq_some_iff.1 hw
    cases he
    exact (Lzw.push?_some hpush).1
  · cases hw
    exact .refl l

/-- What a data code can do: with a previous code it pushes pixels, and then ends the decode because the table is full or
adds its entry. -/
theorem decodeStep_cases {s t : State} {code : BitVec 12} (h : decodeStep code s = .next t) :
    (∃ l : Lzw, t = finish .tableFull { s with lzw := l }) ∨
      ∃ (old : BitVec 12) (l : Lzw) (v : Byte), s.lzw.oldCode = some old ∧ s.lzw.available.toNat < 4096 ∧
        Lzw.SameDict { s.lzw with first := v } l ∧ l.top.toNat ≤ Config.lzwStackEntries ∧
        t = { s with lzw := l.addEntry old code } := by
  unfold decodeStep at h
  split at h
  · cases h
  next old hold =>
  split at h
  · cases h
  next root m hwalk =>
  obtain ⟨⟨start, k⟩, hstart, hpre⟩ := Option.bind_eq_some_iff.1 hwalk
  have hdict : s.lzw.SameDict m := (Lzw.walkStart?_sameDict hstart).trans (walkPrefix_sameDict hpre)
  dsimp only at h
  split at h
  · cases h
    exact .inl ⟨_, rfl⟩
  next hroom =>
  split at h
  · cases h
  next l hpush =>
  obtain ⟨hpushed, htop⟩ := Lzw.push?_some hpush
  cases h
  rw [hdict.available, Config.lzwTableEntries] at hroom
  refine .inr ⟨old, l, m.sfx.get root.toNat, hold, by omega, Lzw.SameDict.trans ?_ hpushed, htop, rfl⟩
  rw [hdict]
  rfl

/-! ### Ways to meet the invariant -/

/-- The rules of STATUS speak of four fields only. -/
theorem StatusOK.congr {s t : State} (h : StatusOK s) (hf : t.faultCode = s.faultCode) (hr : t.endReason = s.endReason)
    (he : t.engine = s.engine) (hu : t.unit = s.unit) : StatusOK t where
  fault := by rw [hf, he]; exact h.fault
  ended := by rw [hr, he]; exact h.ended
  running := by rw [he, hu]; exact h.running

theorem StatusOK.faultCode_eq {s : State} (h : StatusOK s) (he : s.engine ≠ .fault) : s.faultCode = .noFault :=
  not_not.1 fun hf => he (h.fault.1 hf)

theorem StatusOK.endReason_eq {s : State} (h : StatusOK s) (he : s.engine ≠ .done) : s.endReason = .noReason :=
  not_not.1 fun hr => he (h.ended.1 hr)

/-- With no unit running the invariant is about the parameters, the memory and STATUS. -/
theorem Inv.of_halted {s : State} (hp : s.params.legal = true) (hm : Memory.wf s.mem) (hs : StatusOK s)
    (he : s.engine ≠ .busy) : Inv s :=
  ⟨hp, hm, hs, fun hb => absurd hb he, fun hb => absurd hb he⟩

/-- The invariant of a running LZW unit. -/
theorem Inv.of_lzwRun {s : State} (hp : s.params.legal = true) (hm : Memory.wf s.mem) (hs : StatusOK s)
    (hu : s.unit = .lzw) (hr : LzwRun s) : Inv s :=
  ⟨hp, hm, hs, fun _ _ => hr, fun _ hu' => absurd (hu.symm.trans hu') (by decide)⟩

/-- The invariant of a running PNG unit. -/
theorem Inv.of_pngRun {s : State} (hp : s.params.legal = true) (hm : Memory.wf s.mem) (hs : StatusOK s)
    (hu : s.unit = .png) (hr : PngRun s) : Inv s :=
  ⟨hp, hm, hs, fun _ hu' => absurd (hu.symm.trans hu') (by decide), fun _ _ => hr⟩

/-- STATUS right after a start command. -/
theorem StatusOK.of_started {s : State} (hf : s.faultCode = .noFault) (hr : s.endReason = .noReason)
    (he : s.engine = .busy) (hu : s.unit = .lzw ∨ s.unit = .png) : StatusOK s where
  fault := by simp [hf, he]
  ended := by simp [hr, he]
  running := fun _ => hu

/-- `raise Fault` leads to the invariant from any state with legal parameters and canonical memory. -/
theorem raise_inv {s : State} {code : FaultCode} (hp : s.params.legal = true) (hm : Memory.wf s.mem)
    (hc : code ≠ .noFault) : Inv (raise code s) :=
  .of_halted hp hm ⟨by simp [hc], by simp, by simp⟩ (by simp)

/-- `done` leads to the invariant unless a fault code is left. -/
theorem finish_inv {s : State} {reason : EndReason} (hp : s.params.legal = true) (hm : Memory.wf s.mem)
    (hf : s.faultCode = .noFault) (hr : reason ≠ .noReason) : Inv (finish reason s) :=
  .of_halted hp hm ⟨by simp [hf], by simp [hr], by simp⟩ (by simp)

/-- A reset leads to the invariant: no unit runs. -/
theorem resetRegs_inv {s : State} (hp : s.params.legal = true) (hm : Memory.wf s.mem) : Inv (resetRegs s) :=
  .of_halted hp hm ⟨by simp, by simp, by simp⟩ (by simp)

theorem powerOnReset_inv {s : State} (hp : s.params.legal = true) : Inv (powerOnReset s) :=
  .of_halted hp List.Pairwise.nil ⟨by simp [powerOnReset], by simp [powerOnReset], by simp [powerOnReset]⟩
    (by simp [powerOnReset])

/-- CMDERR, IRQ_EN and the model's own queues and counters take no part in the invariant. -/
theorem Inv.with_bookkeeping {s : State} (h : Inv s) (cmdErr irqEn hostNext : Bool) (inbox : List HostEvent)
    (outbox : List BusResp) (free : Nat) :
    Inv { s with
      cmdErr := cmdErr
      irqEn := irqEn
      hostNext := hostNext
      inbox := inbox
      outbox := outbox
      free := free } where
  params := h.params
  mem := h.mem
  status := h.status.congr rfl rfl rfl rfl
  lzw := fun hb hu =>
    have r := h.lzw hb hu
    { r with check := { r.check with } }
  png := fun hb hu =>
    have r := h.png hb hu
    { r with check := { r.check with } }

theorem refuse_inv {s : State} (h : Inv s) : Inv (refuse s) := h.with_bookkeeping ..

theorem respond_inv {s : State} (h : Inv s) (r : BusResp) : Inv (respond r s) := h.with_bookkeeping ..

theorem tick_inv {s : State} (h : Inv s) : Inv (tick s) := h.with_bookkeeping ..

/-- A meaning answers no state without the invariant. -/
def KeepsInv : Result → Prop
  | .next t => Inv t
  | .fault _ => True
  | .refused _ => True

theorem keepsInv_iff (r : Result) : KeepsInv r ↔ ∀ t, r = .next t → Inv t := by
  cases r <;> simp [KeepsInv]

/-! ### Host accesses keep the invariant -/

@[simp] theorem storeReg_engine (s : State) (offset : Nat) (v : Word) : (storeReg s offset v).engine = s.engine := by
  simp only [storeReg, apply_ite State.engine, ite_self]

@[simp] theorem storeReg_unit (s : State) (offset : Nat) (v : Word) : (storeReg s offset v).unit = s.unit := by
  simp only [storeReg, apply_ite State.unit, ite_self]

@[simp] theorem storeReg_faultCode (s : State) (offset : Nat) (v : Word) :
    (storeReg s offset v).faultCode = s.faultCode := by
  simp only [storeReg, apply_ite State.faultCode, ite_self]

@[simp] theorem storeReg_endReason (s : State) (offset : Nat) (v : Word) :
    (storeReg s offset v).endReason = s.endReason := by
  simp only [storeReg, apply_ite State.endReason, ite_self]

@[simp] theorem storeReg_mem (s : State) (offset : Nat) (v : Word) : (storeReg s offset v).mem = s.mem := by
  simp only [storeReg, apply_ite State.mem, ite_self]

/-- A register that a running unit does not hold is IRQ_EN, or ignores the write (20_memory.md R66). -/
theorem storeReg_of_not_held {s : State} {offset : Nat} {v : Word} (h : heldWhileBusy offset = false) :
    storeReg s offset v = { s with irqEn := (storeReg s offset v).irqEn } := by
  simp only [heldWhileBusy, Bool.or_eq_false_iff, beq_eq_false_iff_ne, ne_eq] at h
  obtain ⟨⟨⟨⟨⟨⟨⟨⟨hw, hh⟩, hi⟩, ho⟩, hl⟩, hx⟩, hy⟩, hc⟩, hv⟩ := h
  simp only [storeReg, hw, hh, hi, ho, hl, hx, hy, hc, hv, if_false]
  split <;> rfl

theorem isBusy_iff (s : State) : s.isBusy = true ↔ s.engine = .busy := by simp [State.isBusy]

theorem isBusy_false_iff (s : State) : s.isBusy = false ↔ s.engine ≠ .busy := by simp [State.isBusy]

theorem storeReg_inv {s : State} (h : Inv s) {offset : Nat} {v : Word}
    (hheld : s.isBusy = true → heldWhileBusy offset = false) : Inv (storeReg s offset v) := by
  by_cases hb : s.engine = .busy
  · rw [storeReg_of_not_held (hheld ((isBusy_iff s).2 hb))]
    exact h.with_bookkeeping ..
  · exact .of_halted (by simpa using h.params) (by simpa using h.mem)
      (h.status.congr (by simp) (by simp) (by simp) (by simp)) (by simpa using hb)

theorem poke_inv {s : State} (h : Inv s) (hb : s.engine ≠ .busy) (sp : Space) (i : Nat) (bytes : List Byte) :
    Inv (s.poke sp i bytes) :=
  .of_halted h.params (State.poke_wf s sp i bytes h.mem) (h.status.congr rfl rfl rfl rfl) hb

theorem busAccess_inv {s : State} (h : Inv s) (op : BusOp) : Inv (busAccess op s) := by
  obtain ⟨r, t, heq, ht⟩ := busAccess_cases op s
  rw [heq]
  refine respond_inv ?_ r
  rcases ht with rfl | ⟨-, rfl⟩ | ⟨offset, hheld, rfl⟩ | ⟨hb, sp, i, -, rfl⟩
  · exact h
  · exact refuse_inv h
  · exact storeReg_inv h hheld
  · exact poke_inv h ((isBusy_false_iff s).1 hb) ..

end Sys2Proof.Machine

namespace Sys2Proof

/-! ### The classes of LZW codes (30_encoding.md R87) -/

theorem LzwCtx.isClear_iff (c : LzwCtx) (code : BitVec 12) :
    c.isClear code = true ↔ code.toNat = c.clearCode.toNat := by
  simp [LzwCtx.isClear]

theorem LzwCtx.isEnd_iff (c : LzwCtx) (code : BitVec 12) :
    c.isEnd code = true ↔ code.toNat = c.clearCode.toNat + 1 := by
  simp [LzwCtx.isEnd]

theorem LzwCtx.isBad_iff (c : LzwCtx) (code : BitVec 12) :
    c.isBad code = true ↔
      c.available.toNat < code.toNat ∨ c.oldCode = none ∧ c.clearCode.toNat ≤ code.toNat := by
  simp [LzwCtx.isBad]

theorem LzwCtx.isFirst_iff (c : LzwCtx) (code : BitVec 12) :
    c.isFirst code = true ↔ c.oldCode = none ∧ code.toNat < c.clearCode.toNat := by
  simp [LzwCtx.isFirst]

end Sys2Proof

namespace Sys2Proof.Machine

/-! ### The LZW unit's part of a step keeps the invariant -/

/-- A running LZW unit goes on: the registers it was started with stay, and the rest meets the rules of the run. -/
theorem Inv.lzw_next {s : State} (h : Inv s) (hb : s.engine = .busy) (hu : s.unit = .lzw) {inPos pixCnt : Word}
    {l : Lzw} {mem : Memory} {free : Nat} (hm : Memory.wf mem)
    (hpix : pixCnt.toNat ≤ s.width.toNat * s.height.toNat) (hgood : l.Good)
    (hblock : inPos.toNat + l.count.toNat ≤ s.inLen.toNat) :
    Inv { s with inPos := inPos, pixCnt := pixCnt, lzw := l, mem := mem, free := free } :=
  have r := h.lzw hb hu
  .of_lzwRun h.params hm (h.status.congr rfl rfl rfl rfl) hu
    { check := { r.check with }
      fmt := r.fmt
      pos := (Nat.le_add_right _ _).trans hblock
      pix := hpix
      good := fun _ => hgood
      block := fun _ => hblock }

/-- `raise Fault` in a state with the invariant. -/
theorem Inv.raise {s : State} (h : Inv s) {code : FaultCode} (hc : code ≠ .noFault) : Inv (raise code s) :=
  raise_inv h.params h.mem hc

/-- `done` in a running state. -/
theorem Inv.finish {s : State} (h : Inv s) (hb : s.engine = .busy) {reason : EndReason} (hr : reason ≠ .noReason) :
    Inv (finish reason s) :=
  finish_inv h.params h.mem (h.status.faultCode_eq (by simp [hb])) hr

theorem succ_toNat_of_lt {a b : Word} (h : a.toNat < b.toNat) : (a + 1).toNat = a.toNat + 1 := by
  have := b.isLt
  simp only [BitVec.toNat_add, BitVec.ofNat_eq_ofNat, BitVec.toNat_ofNat]; omega

theorem lzwHeader_inv {s : State} (h : Inv s) (hb : s.engine = .busy) (hu : s.unit = .lzw) : Inv (lzwHeader s) := by
  rcases lzwHeader_cases s with ⟨-, heq⟩ | ⟨ds, -, hlt, ⟨-, heq⟩ | ⟨hlo, hhi, heq⟩⟩ <;> rw [heq]
  · exact h.raise (by decide)
  · exact raise_inv h.params h.mem (by decide)
  · refine h.lzw_next hb hu h.mem (h.lzw hb hu).pix (lzwOpen_good ds _ _ hlo hhi) ?_
    rw [succ_toNat_of_lt hlt]
    exact hlt

/-- Popping a pixel changes the memory, counts the pixel and shrinks the stack. -/
theorem popPixel_eq (s : State) :
    popPixel s = { s with
      mem := (popPixel s).mem
      pixCnt := s.pixCnt + 1
      lzw := { s.lzw with top := s.lzw.top - 1 } } := by
  unfold popPixel
  dsimp only
  rw [setPixel_eq]

theorem Lzw.Good.pop {l : Lzw} (h : l.Good) (ht : l.top ≠ 0) : ({ l with top := l.top - 1 } : Lzw).Good := by
  have hle : (l.top - 1).toNat ≤ l.top.toNat := by
    have hpos : l.top.toNat ≠ 0 := fun h0 => ht (BitVec.eq_of_toNat_eq h0)
    simp only [BitVec.toNat_sub, BitVec.ofNat_eq_ofNat, BitVec.toNat_ofNat]; omega
  exact { h with top := hle.trans h.top }

theorem popPixel_inv {s : State} (h : Inv s) (hb : s.engine = .busy) (hu : s.unit = .lzw) (hd : s.lzw.dataSize ≠ 0)
    (hp : s.pixCnt.toNat < s.width.toNat * s.height.toNat) (ht : s.lzw.top ≠ 0) : Inv (popPixel s) := by
  have r := h.lzw hb hu
  have hpix : (s.pixCnt + 1).toNat ≤ s.pixCnt.toNat + 1 := by
    simp only [BitVec.toNat_add, BitVec.ofNat_eq_ofNat, BitVec.toNat_ofNat]; omega
  rw [popPixel_eq]
  exact h.lzw_next hb hu (popPixel_wf s h.mem) (hpix.trans hp) ((r.good hd).pop ht) (r.block hd)

/-- Opening a sub-block keeps the invariant: the whole block is present (42_lzw.md R165). -/
theorem openSubBlock_keepsInv {s : State} (h : Inv s) (hb : s.engine = .busy) (hu : s.unit = .lzw)
    (hd : s.lzw.dataSize ≠ 0) (len : Nat) : KeepsInv (openSubBlock len s) := by
  rw [keepsInv_iff]
  intro t ht
  have r := h.lzw hb hu
  rcases openSubBlock_cases len s t ht with ⟨hlen, rfl⟩ | ⟨-, rfl⟩
  · refine h.lzw_next hb hu h.mem r.pix { r.good hd with } ?_
    have hmod : len % 2 ^ 8 ≤ len := Nat.mod_le _ _
    simp only [BitVec.toNat_ofNat]
    omega
  · exact h.raise (by decide)

/-- A length byte ends the decode or opens a sub-block (30_encoding.md R88). -/
theorem exec_decodeLen_cases (b : Byte) (s : State) :
    exec (decodeLen b) s = execSbTerm s ∨ ∃ len, exec (decodeLen b) s = openSubBlock len s := by
  unfold decodeLen
  split_ifs
  iterate 8 exact .inr ⟨_, rfl⟩
  exact .inl rfl

theorem exec_decodeLen_keepsInv {s : State} (h : Inv s) (hb : s.engine = .busy) (hu : s.unit = .lzw)
    (hd : s.lzw.dataSize ≠ 0) (b : Byte) : KeepsInv (exec (decodeLen b) s) := by
  rcases exec_decodeLen_cases b s with heq | ⟨len, heq⟩ <;> rw [heq]
  · exact finish_inv h.params h.mem (h.status.faultCode_eq (by simp [hb])) (by decide)
  · exact openSubBlock_keepsInv h hb hu hd len

/-- A code that is not CLEAR, END or BAD is a root, an entry, or the entry being built (30_encoding.md R87). -/
theorem Lzw.entryBelow_of_data {l : Lzw} {code : BitVec 12} (hclear : ¬ l.ctx.isClear code = true)
    (hend : ¬ l.ctx.isEnd code = true) (hbad : ¬ l.ctx.isBad code = true) :
    l.entryBelow (l.available.toNat + 1) code := by
  rw [LzwCtx.isClear_iff] at hclear
  rw [LzwCtx.isEnd_iff] at hend
  rw [LzwCtx.isBad_iff, not_or] at hbad
  simp only [Lzw.ctx] at hclear hend hbad
  unfold Lzw.entryBelow
  omega

theorem execLzwBad_keepsInv {s : State} (h : Inv s) (hb : s.engine = .busy) (code : BitVec 12) :
    KeepsInv (execLzwBad code s) := by
  unfold execLzwBad
  split
  · exact h.raise (by decide)
  · exact h.finish hb (by decide)

/-- A code changes the dictionary and the stack of a running unit; the input stays where it is. -/
theorem Inv.lzw_code {s : State} (h : Inv s) (hb : s.engine = .busy) (hu : s.unit = .lzw) (hd : s.lzw.dataSize ≠ 0)
    {l : Lzw} (hgood : l.Good) (hcount : l.count = s.lzw.count) : Inv { s with lzw := l } :=
  h.lzw_next hb hu h.mem (h.lzw hb hu).pix hgood (by rw [hcount]; exact (h.lzw hb hu).block hd)

theorem execLzwFirst_keepsInv {s : State} (h : Inv s) (hb : s.engine = .busy) (hu : s.unit = .lzw)
    (hd : s.lzw.dataSize ≠ 0) {code : BitVec 12} (hc : code.toNat < s.lzw.clearCode.toNat) :
    KeepsInv (execLzwFirst code s) := by
  unfold execLzwFirst
  split
  · trivial
  · next l hpush =>
    obtain ⟨hdict, htop⟩ := Lzw.push?_some hpush
    have hgood := ((h.lzw hb hu).good hd).of_sameDict hdict htop
    exact h.lzw_code hb hu hd (hgood.first code _ (by rw [hdict.clearCode]; exact hc)) (by rw [hdict])

/-- LIT, DICT and KWKWK keep the dictionary good (42_lzw.md R173, R174). -/
theorem decodeStep_keepsInv {s : State} (h : Inv s) (hb : s.engine = .busy) (hu : s.unit = .lzw)
    (hd : s.lzw.dataSize ≠ 0) {code : BitVec 12} (hc : s.lzw.entryBelow (s.lzw.available.toNat + 1) code) :
    KeepsInv (decodeStep code s) := by
  rw [keepsInv_iff]
  intro t ht
  rcases decodeStep_cases ht with ⟨l, rfl⟩ | ⟨old, l, v, hold, hroom, hdict, htop, rfl⟩
  · exact finish_inv h.params h.mem (h.status.faultCode_eq (by simp [hb])) (by decide)
  · have hstart : Lzw.Good { s.lzw with first := v } := { (h.lzw hb hu).good hd with }
    have hgood := hstart.of_sameDict hdict htop
    refine h.lzw_code hb hu hd (hgood.addEntry ?_ ?_ ?_) ?_
    · rw [hdict]; exact hold
    · rw [hdict]; exact hroom
    · rw [hdict]; exact hc
    · rw [Lzw.addEntry_eq, hdict]; rfl

/-- Whatever class a code is of, its instruction keeps the invariant. -/
theorem exec_decodeCode_keepsInv {s : State} (h : Inv s) (hb : s.engine = .busy) (hu : s.unit = .lzw)
    (hd : s.lzw.dataSize ≠ 0) (code : BitVec 12) : KeepsInv (exec (decodeCode s.lzw.ctx code) s) := by
  unfold decodeCode
  split_ifs with hclear hend hbad hfirst hkwkwk hlit
  · exact h.lzw_code hb hu hd ((h.lzw hb hu).good hd).clear rfl
  · exact h.finish hb (by decide)
  · exact execLzwBad_keepsInv h hb code
  · exact execLzwFirst_keepsInv h hb hu hd ((LzwCtx.isFirst_iff _ _).1 hfirst).2
  all_goals exact decodeStep_keepsInv h hb hu hd (Lzw.entryBelow_of_data hclear hend hbad)

/-! ### What a running unit finds to do -/

theorem readByte?_of_lt {s : State} (h : s.inPos.toNat < s.inLen.toNat) :
    readByte? s = some (s.byteAt (0x10000000 + s.inPos.toNat), { s with inPos := s.inPos + 1 }) :=
  (readByte?_some ..).2 ⟨h, rfl, rfl⟩

theorem fetch_of_lzw {s : State} (hm : s.hostMoves = false) (hb : s.engine = .busy) (hu : s.unit = .lzw) :
    fetch s = fetchLzw s := by
  simp only [fetch_of_engine hm hb, fetchEngine, hu]

theorem fetch_of_png {s : State} (hm : s.hostMoves = false) (hb : s.engine = .busy) (hu : s.unit = .png) :
    fetch s = fetchPng s := by
  simp only [fetch_of_engine hm hb, fetchEngine, hu]

/-- The PNG unit reads its filter byte (43_png_unfilter.md R212). -/
theorem fetchPng_of_lt {s : State} (h : s.inPos.toNat < s.inLen.toNat) :
    fetchPng s = .word (.filter (s.byteAt (0x10000000 + s.inPos.toNat))) { s with inPos := s.inPos + 1 } := by
  simp only [fetchPng, readByte?_of_lt h]

/-- The LZW loop with a whole code in the accumulator takes it (42_lzw.md R169, 30_encoding.md R85). -/
theorem fetchLzw_of_code {s : State} (hd : s.lzw.dataSize ≠ 0) (hp : s.pixCnt.toNat < s.width.toNat * s.height.toNat)
    (ht : s.lzw.top = 0) (hb : s.lzw.codeSize.toNat ≤ s.lzw.bits.toNat) :
    fetchLzw s = .word (.code s.lzw.nextCode) { s with lzw := s.lzw.dropCode } := by
  rw [fetchLzw, if_neg hd, if_neg (by omega), if_neg (by simpa using ht), if_neg (by omega)]

/-! ### What a running LZW unit finds to do keeps the invariant -/

/-- What a step finds to do leads to the invariant; a word that it reads decodes in context `c`. -/
def Fetched.KeepsInv (c : LzwCtx) : Fetched → Prop
  | .word e s => Machine.KeepsInv (exec (decode c e) s)
  | .work s => Inv s
  | .wait => True
  | .stuck _ => True

/-- Reading a byte of the input keeps the invariant: it ends the decode, opens a sub-block, or is loaded from the open one
(42_lzw.md R165, R167). -/
theorem fetchLzw_keepsInv_of_needsByte {s : State} (h : Inv s) (hb : s.engine = .busy) (hu : s.unit = .lzw)
    (hd : s.lzw.dataSize ≠ 0) (hp : s.pixCnt.toNat < s.width.toNat * s.height.toNat) (ht : s.lzw.top = 0)
    (hbits : s.lzw.bits.toNat < s.lzw.codeSize.toNat) : (fetchLzw s).KeepsInv s.lzw.ctx := by
  have r := h.lzw hb hu
  have hblock := r.block hd
  rw [fetchLzw_of_needsByte hd hp ht hbits]
  cases hread : readByte? s with
  | none => exact h.raise (by decide)
  | some p =>
    obtain ⟨b, s1⟩ := p
    obtain ⟨hlt, -, rfl⟩ := (readByte?_some s s1 b).1 hread
    have hpos := succ_toNat_of_lt hlt
    dsimp only
    split
    · next hcount =>
      have h1 : Inv { s with inPos := s.inPos + 1 } :=
        h.lzw_next hb hu h.mem r.pix (r.good hd) (by rw [hpos, hcount]; exact hlt)
      exact exec_decodeLen_keepsInv h1 hb hu hd b
    · next hcount =>
      have hcnt : (s.lzw.count - 1).toNat + 1 = s.lzw.count.toNat := by
        have hne : s.lzw.count.toNat ≠ 0 := fun h0 => hcount (BitVec.eq_of_toNat_eq h0)
        simp only [BitVec.toNat_sub, BitVec.ofNat_eq_ofNat, BitVec.toNat_ofNat]; omega
      refine h.lzw_next hb hu h.mem r.pix { (r.good hd).loadByte b hbits with } ?_
      dsimp only
      omega

/-- One pass through the loop of 42_lzw.md R169 keeps the invariant. -/
theorem fetchLzw_keepsInv {s : State} (h : Inv s) (hb : s.engine = .busy) (hu : s.unit = .lzw) :
    (fetchLzw s).KeepsInv s.lzw.ctx := by
  by_cases hd : s.lzw.dataSize = 0
  · rw [fetchLzw, if_pos hd]
    exact lzwHeader_inv h hb hu
  by_cases hpix : s.width.toNat * s.height.toNat ≤ s.pixCnt.toNat
  · rw [fetchLzw, if_neg hd, if_pos hpix]
    exact h.finish hb (by decide)
  have hroom : s.pixCnt.toNat < s.width.toNat * s.height.toNat := by omega
  by_cases htop : s.lzw.top = 0
  case neg =>
    rw [fetchLzw, if_neg hd, if_neg hpix, if_pos htop]
    exact popPixel_inv h hb hu hd hroom htop
  rcases Nat.lt_or_ge s.lzw.bits.toNat s.lzw.codeSize.toNat with hbits | hbits
  · exact fetchLzw_keepsInv_of_needsByte h hb hu hd hroom htop hbits
  · rw [fetchLzw_of_code hd hroom htop hbits]
    have h1 : Inv { s with lzw := s.lzw.dropCode } :=
      h.lzw_code hb hu hd (((h.lzw hb hu).good hd).dropCode hbits) rfl
    exact exec_decodeCode_keepsInv h1 hb hu hd s.lzw.nextCode

/-! ### The passes of a PNG decode: their sizes, and the pixels of the passes before one (43_png_unfilter.md R215, R232) -/

/-- The length of a row or column is the part at the even steps and the part at the odd ones. -/
theorem ceilDiv_add_ceilDiv_sub (n k : Nat) (hk : 0 < k) :
    ceilDiv n (2 * k) + ceilDiv (n - k) (2 * k) = ceilDiv n k := by
  have heven : ceilDiv n (2 * k) = ((n + k - 1) / k + 1) / 2 := by
    rw [← Nat.add_div_right _ hk, Nat.div_div_eq_div_mul, ceilDiv]
    congr 1 <;> omega
  have hodd : ceilDiv (n - k) (2 * k) = (n + k - 1) / k / 2 := by
    rw [Nat.div_div_eq_div_mul, Nat.mul_comm k 2, ceilDiv]
    rcases Nat.lt_or_ge n k with hlt | hge
    · rw [Nat.div_eq_of_lt (by omega), Nat.div_eq_of_lt (by omega)]
    · congr 1; omega
  rw [heven, hodd, ceilDiv]
  omega

theorem ceilDiv_le_self {n k : Nat} (hk : 0 < k) : ceilDiv n k ≤ n := by
  unfold ceilDiv
  rw [Nat.div_le_iff_le_mul_add_pred hk]
  have hmul : n ≤ k * n := Nat.le_mul_of_pos_left n hk
  omega

theorem ceilDiv_one (n : Nat) : ceilDiv n 1 = n := by simp [ceilDiv]

theorem passGeom_steps_pos (il : Bool) (pass : Nat) : 0 < (passGeom il pass).xStep ∧ 0 < (passGeom il pass).yStep := by
  unfold passGeom
  split_ifs <;> decide

theorem passWidthOf_le (il : Bool) (w pass : Nat) : passWidthOf il w pass ≤ w :=
  (ceilDiv_le_self (passGeom_steps_pos il pass).1).trans (Nat.sub_le ..)

theorem passHeightOf_le (il : Bool) (h pass : Nat) : passHeightOf il h pass ≤ h :=
  (ceilDiv_le_self (passGeom_steps_pos il pass).2).trans (Nat.sub_le ..)

theorem placedBefore_succ (il : Bool) (w h : Nat) {pass : Nat} (hp : 1 ≤ pass) :
    placedBefore il w h (pass + 1) = placedBefore il w h pass + passWidthOf il w pass * passHeightOf il h pass := by
  obtain ⟨p, rfl⟩ := Nat.exists_eq_add_of_le' hp
  rfl

/-- Empty passes place no pixels. -/
theorem placedBefore_of_empty (il : Bool) (w h : Nat) {pass p : Nat} (hp : 1 ≤ pass) (hle : pass ≤ p)
    (hempty : ∀ q, pass ≤ q → q < p → passWidthOf il w q = 0 ∨ passHeightOf il h q = 0) :
    placedBefore il w h p = placedBefore il w h pass := by
  induction p, hle using Nat.le_induction with
  | base => rfl
  | succ p hle ih =>
    have hzero : passWidthOf il w p * passHeightOf il h p = 0 := Nat.mul_eq_zero.2 (hempty p hle (by omega))
    rw [placedBefore_succ il w h (hp.trans hle), hzero, ih fun q h1 h2 => hempty q h1 (by omega), Nat.add_zero]

theorem placedBefore_mono (il : Bool) (w h : Nat) {p q : Nat} (hp : 1 ≤ p) (hle : p ≤ q) :
    placedBefore il w h p ≤ placedBefore il w h q := by
  induction q, hle using Nat.le_induction with
  | base => rfl
  | succ q hle ih =>
    rw [placedBefore_succ il w h (hp.trans hle)]
    exact ih.trans (Nat.le_add_right ..)

/-- The passes together place every pixel once (43_png_unfilter.md R234): each pass doubles the density of the pixels
placed before it, in the one direction or the other. -/
theorem placedBefore_all (il : Bool) (w h : Nat) : placedBefore il w h (lastPass il + 1) = w * h := by
  cases il with
  | false => simp [lastPass, placedBefore, passWidthOf, passHeightOf, passGeom, ceilDiv]
  | true =>
    have hw8 := ceilDiv_add_ceilDiv_sub w 4 (by decide)
    have hh8 := ceilDiv_add_ceilDiv_sub h 4 (by decide)
    have hw4 := ceilDiv_add_ceilDiv_sub w 2 (by decide)
    have hh4 := ceilDiv_add_ceilDiv_sub h 2 (by decide)
    have hw2 := ceilDiv_add_ceilDiv_sub w 1 (by decide)
    have hh2 := ceilDiv_add_ceilDiv_sub h 1 (by decide)
    simp only [lastPass, ↓reduceIte, Nat.reduceAdd, placedBefore, passWidthOf, passGeom, Bool.not_true,
      Bool.false_eq_true, zero_add, tsub_zero, passHeightOf, OfNat.ofNat_ne_one, Nat.succ_ne_self, Nat.reduceEqDiff]
    rw [← Nat.add_mul, hw8, ← Nat.mul_add, hh8, ← Nat.add_mul, hw4, ← Nat.mul_add, hh4, ← Nat.add_mul, hw2,
      ← Nat.mul_add, hh2, ceilDiv_one, ceilDiv_one]

/-- A decode has never placed more pixels than the image has. -/
theorem placedBefore_le (il : Bool) (w h : Nat) {pass : Nat} (hp : 1 ≤ pass) (hlast : pass ≤ lastPass il + 1) :
    placedBefore il w h pass ≤ w * h :=
  (placedBefore_mono il w h hp hlast).trans_eq (placedBefore_all il w h)

/-! ### The sizes of a legal PNG configuration fit their registers -/

/-- What the sizes of a legal pair of color type and depth need: some component, and no pixel of the input longer than four
times one of the output. -/
theorem pngTable_sizes : ∀ e ∈ pngTable, e.2.2 ≤ 4 ∧
    1 ≤ (if e.1 ∈ [4, 6] then e.2.2 - 1 else e.2.2) * (if e.2.1 = 16 then 8 else e.2.1) ∧
    e.2.2 * e.2.1 ≤ 4 * ((if e.1 ∈ [4, 6] then e.2.2 - 1 else e.2.2) * (if e.2.1 = 16 then 8 else e.2.1)) ∧
    max 1 (e.2.2 * e.2.1 / 8) < 16 := by
  decide

theorem le_mul_strideOf (w n b : Nat) : w * n * b ≤ 8 * strideOf w n b := by
  unfold strideOf ceilDiv
  omega

/-- A legal image has at most 2^31 pixels, since each takes a bit of OUTBUF (00_scope.md R6). -/
theorem PngLegal.pixels_le {s : State} {bands : Nat} (h : PngLegal s bands) (hp : s.params.legal = true) :
    s.width.toNat * s.height.toNat ≤ 2 ^ 31 := by
  obtain ⟨-, hone, -, -⟩ := pngTable_sizes _ h.pair
  obtain ⟨-, hout, -, -⟩ := (Params.legal_iff _).1 hp
  have hfits := h.fits
  generalize (if s.inFmt.colorType.toNat ∈ [4, 6] then bands - 1 else bands) = n at hone hfits
  generalize (if s.inFmt.bitDepth.toNat = 16 then 8 else s.inFmt.bitDepth.toNat) = b at hone hfits
  have hstride := le_mul_strideOf s.width.toNat n b
  calc s.width.toNat * s.height.toNat
      ≤ s.width.toNat * s.height.toNat * (n * b) := Nat.le_mul_of_pos_right _ hone
    _ = s.width.toNat * n * b * s.height.toNat := by ring
    _ ≤ 8 * strideOf s.width.toNat n b * s.height.toNat := Nat.mul_le_mul_right _ hstride
    _ ≤ 8 * 2 ^ 28 := by rw [Nat.mul_assoc]; exact Nat.mul_le_mul_left _ (hfits.trans hout.2)
    _ = 2 ^ 31 := by norm_num

/-- A scanline of a legal image, in any pass, has at most 2^30 bytes. -/
theorem PngLegal.rowBytes_le {s : State} {bands : Nat} (h : PngLegal s bands) (hp : s.params.legal = true) {pw : Nat}
    (hpw : pw ≤ s.width.toNat) : ceilDiv (bands * pw * s.inFmt.bitDepth.toNat) 8 ≤ 2 ^ 30 := by
  obtain ⟨-, -, hratio, -⟩ := pngTable_sizes _ h.pair
  obtain ⟨-, hout, -, -⟩ := (Params.legal_iff _).1 hp
  have hfits := h.fits
  dsimp only at hratio
  generalize (if s.inFmt.colorType.toNat ∈ [4, 6] then bands - 1 else bands) = n at hratio hfits
  generalize (if s.inFmt.bitDepth.toNat = 16 then 8 else s.inFmt.bitDepth.toNat) = b at hratio hfits
  have hstride := le_mul_strideOf s.width.toNat n b
  have hrow : strideOf s.width.toNat n b ≤ 2 ^ 28 :=
    (Nat.le_mul_of_pos_right _ h.size.2).trans (hfits.trans hout.2)
  have hbits : bands * pw * s.inFmt.bitDepth.toNat ≤ 2 ^ 33 :=
    calc bands * pw * s.inFmt.bitDepth.toNat
        = pw * (bands * s.inFmt.bitDepth.toNat) := by ring
      _ ≤ s.width.toNat * (4 * (n * b)) := Nat.mul_le_mul hpw hratio
      _ = 4 * (s.width.toNat * n * b) := by ring
      _ ≤ 4 * (8 * 2 ^ 28) := by omega
      _ = 2 ^ 33 := by norm_num
  unfold ceilDiv
  omega

/-! ### The PNG unit's part of a step keeps the invariant -/

/-- What a PNG decode fixes when it starts, and that its input is not overrun. -/
structure PngSetup (s : State) : Prop where
  check : PngLegal s s.png.bands.toNat
  fmt : s.outFmt = pngOutFmt s.inFmt.colorType.toNat s.inFmt.bitDepth.toNat
  alpha : s.png.alpha = pngAlpha s.inFmt.colorType.toNat
  bpp : s.png.bpp.toNat = max 1 (s.png.bands.toNat * s.inFmt.bitDepth.toNat / 8)
  pos : s.inPos.toNat ≤ s.inLen.toNat

/-- The bookkeeping of the pass and the row a PNG decode is in (10_state.md R45). -/
structure PngPass (s : State) : Prop where
  pass : 1 ≤ s.png.pass.toNat ∧ s.png.pass.toNat ≤ lastPass s.inFmt.interlace
  passWidth : s.png.passWidth.toNat = passWidthOf s.inFmt.interlace s.width.toNat s.png.pass.toNat
  passHeight : s.png.passHeight.toNat = passHeightOf s.inFmt.interlace s.height.toNat s.png.pass.toNat
  nonempty : s.png.passWidth.toNat ≠ 0
  rowBytes : s.png.rowBytes.toNat = ceilDiv (s.png.bands.toNat * s.png.passWidth.toNat * s.inFmt.bitDepth.toNat) 8
  srcY : s.png.srcY.toNat < s.png.passHeight.toNat

/-- The pixels placed before row `row` of the current pass. -/
def State.placedAt (s : State) (row : Nat) : Nat :=
  placedBefore s.inFmt.interlace s.width.toNat s.height.toNat s.png.pass.toNat + row * s.png.passWidth.toNat

theorem PngRun.of_parts {s : State} (hset : PngSetup s) (hpass : PngPass s)
    (hpix : s.pixCnt.toNat = s.placedAt s.png.srcY.toNat) : PngRun s :=
  { hset, hpass with pix := hpix }

theorem PngRun.setup {s : State} (h : PngRun s) : PngSetup s := { h with }

theorem PngRun.inPass {s : State} (h : PngRun s) : PngPass s := { h with }

/-- The pixels up to the end of a row of the current pass are pixels of the image. -/
theorem PngPass.placedAt_le {s : State} (h : PngPass s) {row : Nat} (hrow : row ≤ s.png.passHeight.toNat) :
    s.placedAt row ≤ s.width.toNat * s.height.toNat := by
  calc s.placedAt row
      ≤ s.placedAt s.png.passHeight.toNat := Nat.add_le_add_left (Nat.mul_le_mul_right _ hrow) _
    _ = placedBefore s.inFmt.interlace s.width.toNat s.height.toNat (s.png.pass.toNat + 1) := by
        rw [placedBefore_succ _ _ _ h.pass.1, State.placedAt, h.passWidth, h.passHeight, Nat.mul_comm]
    _ ≤ s.width.toNat * s.height.toNat := placedBefore_le _ _ _ (Nat.le_add_left ..) (Nat.succ_le_succ h.pass.2)

theorem lastPass_le (il : Bool) : lastPass il ≤ 7 := by cases il <;> decide

/-- The registers of a new pass hold its sizes. -/
theorem beginPass_inPass {s : State} (hset : PngSetup s) (hp : s.params.legal = true) {p : Nat} (hone : 1 ≤ p)
    (hlast : p ≤ lastPass s.inFmt.interlace) (hw : passWidthOf s.inFmt.interlace s.width.toNat p ≠ 0)
    (hh : passHeightOf s.inFmt.interlace s.height.toNat p ≠ 0) :
    PngPass (beginPass p s) ∧ (beginPass p s).png.pass.toNat = p := by
  have hwle := passWidthOf_le s.inFmt.interlace s.width.toNat p
  have hhle := passHeightOf_le s.inFmt.interlace s.height.toNat p
  have hseven := lastPass_le s.inFmt.interlace
  have hrow := hset.check.rowBytes_le hp hwle
  have hwlt := s.width.isLt
  have hhlt := s.height.isLt
  have epass : (beginPass p s).png.pass.toNat = p := by
    simp only [beginPass, BitVec.toNat_ofNat]; omega
  have ewidth : (beginPass p s).png.passWidth.toNat = passWidthOf s.inFmt.interlace s.width.toNat p := by
    simp only [beginPass, BitVec.toNat_ofNat]; omega
  have eheight : (beginPass p s).png.passHeight.toNat = passHeightOf s.inFmt.interlace s.height.toNat p := by
    simp only [beginPass, BitVec.toNat_ofNat]; omega
  have erow : (beginPass p s).png.rowBytes.toNat =
      ceilDiv (s.png.bands.toNat * passWidthOf s.inFmt.interlace s.width.toNat p * s.inFmt.bitDepth.toNat) 8 := by
    simp only [beginPass, BitVec.toNat_ofNat]; omega
  refine ⟨{
    pass := by rw [epass]; exact ⟨hone, hlast⟩
    passWidth := by rw [epass, ewidth]; rfl
    passHeight := by rw [epass, eheight]; rfl
    nonempty := by rw [ewidth]; exact hw
    rowBytes := by rw [erow, ewidth]; rfl
    srcY := ?_ }, epass⟩
  rw [eheight]
  exact Nat.pos_of_ne_zero hh

/-- Entering the passes from one on keeps the invariant: the first that is not empty starts with the pixels of the passes
before it placed, or the decode ends (43_png_unfilter.md R223, R226, R233). -/
theorem enterPass_inv {s : State} (hset : PngSetup s) (hp : s.params.legal = true) (hm : Memory.wf s.mem)
    (hs : StatusOK s) (hb : s.engine = .busy) (hu : s.unit = .png) {pass : Nat} (hone : 1 ≤ pass)
    (hpix : s.pixCnt.toNat = placedBefore s.inFmt.interlace s.width.toNat s.height.toNat pass) :
    Inv (enterPass pass s) := by
  rcases enterPass_cases pass s with ⟨p, hfind, heq⟩ | ⟨-, heq⟩ <;> rw [heq]
  · obtain ⟨hle, hlast, hw, hh, hempty⟩ := findPass_some _ _ _ _ _ _ hfind
    obtain ⟨hpass, epass⟩ := beginPass_inPass hset hp (hone.trans hle) hlast hw hh
    have hset' : PngSetup (beginPass p s) := { hset with check := { hset.check with } }
    have hplaced : (beginPass p s).pixCnt.toNat = (beginPass p s).placedAt (beginPass p s).png.srcY.toNat := by
      rw [State.placedAt, epass]
      calc s.pixCnt.toNat = placedBefore s.inFmt.interlace s.width.toNat s.height.toNat p := by
            rw [hpix, placedBefore_of_empty _ _ _ hone hle hempty]
        _ = _ := by simp [beginPass]
    exact .of_pngRun hp hm (hs.congr rfl rfl rfl rfl) hu (.of_parts hset' hpass hplaced)
  · exact finish_inv hp hm (hs.faultCode_eq (by simp [hb])) (by decide)

/-- Going on after a row keeps the invariant, when the row's pixels are counted. -/
theorem advanceRow_inv {s : State} (hset : PngSetup s) (hpass : PngPass s) (hp : s.params.legal = true)
    (hm : Memory.wf s.mem) (hs : StatusOK s) (hb : s.engine = .busy) (hu : s.unit = .png)
    (hpix : s.pixCnt.toNat = s.placedAt (s.png.srcY.toNat + 1)) : Inv (advanceRow s) := by
  unfold advanceRow
  split
  · next hlt =>
    have hsucc := succ_toNat_of_lt (a := s.png.srcY) (b := s.png.passHeight) (by omega)
    refine .of_pngRun hp hm (hs.congr rfl rfl rfl rfl) hu
      (.of_parts { hset with check := { hset.check with } } { hpass with srcY := ?_ } ?_)
    · dsimp only
      rw [hsucc]
      exact hlt
    · dsimp only
      rw [hsucc]
      exact hpix
  · have hlast : s.png.srcY.toNat + 1 = s.png.passHeight.toNat := by have := hpass.srcY; omega
    refine enterPass_inv hset hp hm hs hb hu (Nat.le_add_left ..) ?_
    rw [hpix, placedBefore_succ _ _ _ hpass.pass.1, State.placedAt, hlast, hpass.passWidth, hpass.passHeight,
      Nat.mul_comm]

/-- The state in which a filter places its row: the row is read and reconstructed (43_png_unfilter.md R212, R225). -/
def State.withRow (s : State) (pred : Predictor) : State :=
  { s with
    inPos := s.inPos + s.png.rowBytes
    png := { s.png with curr := s.png.curr.put 0 (scanline pred s) } }

/-- What a filter does with a row that is present: it is read, placed, counted and kept as the prior row before the decode
goes on (43_png_unfilter.md R212, R223). -/
theorem filterRow_of_present {pred : Predictor} {s : State}
    (h : s.inPos.toNat + s.png.rowBytes.toNat ≤ s.inLen.toNat) :
    filterRow pred s = .next (advanceRow { s with
      inPos := s.inPos + s.png.rowBytes
      pixCnt := s.pixCnt + s.png.passWidth
      mem := (placeRow (scanline pred s) (s.withRow pred)).mem
      png := { s.png with
        curr := s.png.curr.put 0 (scanline pred s)
        prior := s.png.prior.put 0 (scanline pred s) } }) := by
  unfold filterRow
  rw [if_neg (by omega)]
  dsimp only
  rw [placeRow_eq]
  rfl

theorem filterRow_keepsInv {s : State} (h : Inv s) (hb : s.engine = .busy) (hu : s.unit = .png) (pred : Predictor) :
    KeepsInv (filterRow pred s) := by
  have r := h.png hb hu
  by_cases hshort : s.inLen.toNat < s.inPos.toNat + s.png.rowBytes.toNat
  · rw [filterRow, if_pos hshort]
    exact h.raise (by decide)
  rw [filterRow_of_present (by omega)]
  have hplaced : s.pixCnt.toNat + s.png.passWidth.toNat = s.placedAt (s.png.srcY.toNat + 1) := by
    rw [r.pix, State.placedAt, Nat.succ_mul, Nat.add_assoc]
  have hmax : s.placedAt (s.png.srcY.toNat + 1) ≤ 2 ^ 31 := (r.inPass.placedAt_le r.srcY).trans (r.check.pixels_le h.params)
  have hpix : (s.pixCnt + s.png.passWidth).toNat = s.pixCnt.toNat + s.png.passWidth.toNat := by
    rw [BitVec.toNat_add]; omega
  have hlen := s.inLen.isLt
  have hpos : (s.inPos + s.png.rowBytes).toNat = s.inPos.toNat + s.png.rowBytes.toNat := by
    rw [BitVec.toNat_add]; omega
  refine advanceRow_inv { r.setup with check := { r.check with }, pos := ?_ } { r.inPass with } h.params
    (placeRow_wf _ (s.withRow pred) h.mem) (h.status.congr rfl rfl rfl rfl) hb hu ?_
  · dsimp only
    omega
  · dsimp only
    rw [hpix, hplaced]
    rfl

/-- The two alternatives of a decoding test. -/
theorem exec_ite_keepsInv {c : Prop} [Decidable c] {i j : Instr} {s : State} (hi : KeepsInv (exec i s))
    (hj : KeepsInv (exec j s)) : KeepsInv (exec (if c then i else j) s) := by
  split
  · exact hi
  · exact hj

/-- A filter byte reconstructs a row, or faults when its type is reserved (30_encoding.md R90). -/
theorem exec_decodeFilter_keepsInv {s : State} (h : Inv s) (hb : s.engine = .busy) (hu : s.unit = .png) (b : Byte) :
    KeepsInv (exec (decodeFilter b) s) := by
  have hreserved : KeepsInv (.next (raise .corruptChunk s)) := h.raise (by decide)
  unfold decodeFilter
  iterate 5 refine exec_ite_keepsInv hreserved ?_
  iterate 5 refine exec_ite_keepsInv (filterRow_keepsInv h hb hu _) ?_
  exact exec_ite_keepsInv hreserved hreserved

theorem fetchPng_keepsInv {s : State} (h : Inv s) (hb : s.engine = .busy) (hu : s.unit = .png) :
    (fetchPng s).KeepsInv s.lzw.ctx := by
  have r := h.png hb hu
  unfold fetchPng
  split
  · exact h.raise (by decide)
  · next b s1 hread =>
    obtain ⟨hlt, -, rfl⟩ := (readByte?_some s s1 b).1 hread
    have h1 : Inv { s with inPos := s.inPos + 1 } :=
      .of_pngRun h.params h.mem (h.status.congr rfl rfl rfl rfl) hu
        { r with check := { r.check with }, pos := by rw [succ_toNat_of_lt hlt]; exact hlt }
    exact exec_decodeFilter_keepsInv h1 hb hu b

/-! ### Commands keep the invariant (40_control.md R110 to R118) -/

theorem acceptsWork_iff (s : State) : s.acceptsWork = true ↔ s.engine = .idle ∨ s.engine = .done := by
  simp [State.acceptsWork]

/-- A state that accepts work has no unit running and no fault. -/
theorem engine_of_acceptsWork {s : State} (h : s.acceptsWork = true) : s.engine ≠ .busy ∧ s.engine ≠ .fault := by
  rcases (acceptsWork_iff s).1 h with he | he <;> simp [he]

theorem execReset_keepsInv {s : State} (h : Inv s) : KeepsInv (execReset s) := by
  unfold execReset
  split
  · exact resetRegs_inv (by simpa using h.params) (scrambleOutput_wf s h.mem)
  · exact resetRegs_inv h.params h.mem

theorem execAbort_keepsInv {s : State} (h : Inv s) : KeepsInv (execAbort s) := by
  unfold execAbort
  split_ifs with hfault hbusy
  · exact refuse_inv h
  · have he : s.engine = .busy := (isBusy_iff s).1 hbusy
    have hf := h.status.faultCode_eq (by simp [he])
    have hr := h.status.endReason_eq (by simp [he])
    rw [scrambleOutput_eq]
    exact .of_halted h.params (scrambleOutput_wf s h.mem)
      ⟨by simp [scrambleCounters, hf], by simp [scrambleCounters, hr], by simp⟩ (by simp)
  · have hf := h.status.faultCode_eq (by simpa [State.acceptsAbort] using hfault)
    exact .of_halted h.params h.mem ⟨by simp [hf], by simp, by simp⟩ (by simp)

/-- A pixel-buffer command that writes some bytes keeps the invariant: no unit is running. -/
theorem Inv.with_mem {s : State} (h : Inv s) (he : s.engine ≠ .busy) {mem : Memory} (hm : Memory.wf mem) :
    Inv { s with mem := mem } :=
  .of_halted h.params hm (h.status.congr rfl rfl rfl rfl) he

theorem raisePb_inv {s : State} (h : Inv s) {code : FaultCode} (hc : code ≠ .noFault) : Inv (raisePb code s) :=
  raise_inv h.params h.mem hc

theorem execPbClear_keepsInv {s : State} (h : Inv s) : KeepsInv (execPbClear s) := by
  unfold execPbClear
  split_ifs with hrefused
  · exact refuse_inv h
  · exact raisePb_inv h (by decide)
  all_goals have he := (engine_of_acceptsWork (by simpa using hrefused)).1
  · exact h.with_mem he (State.zeroFill_wf _ _ _ (State.zeroFill_wf _ _ _ h.mem))
  · exact h.with_mem he (State.zeroFill_wf _ _ _ h.mem)

theorem execPbSet_keepsInv {s : State} (h : Inv s) : KeepsInv (execPbSet s) := by
  unfold execPbSet
  split_ifs with hrefused
  · exact refuse_inv h
  · exact raisePb_inv h (by decide)
  · exact raisePb_inv h (by decide)
  · rw [setPixel_eq]
    exact h.with_mem (engine_of_acceptsWork (by simpa using hrefused)).1 (setPixel_wf _ _ _ _ _ h.mem)

theorem execPbGet_keepsInv {s : State} (h : Inv s) : KeepsInv (execPbGet s) := by
  unfold execPbGet
  split_ifs with hrefused
  · exact refuse_inv h
  · exact raisePb_inv h (by decide)
  · exact raisePb_inv h (by decide)
  · have he : s.engine ≠ .busy := (engine_of_acceptsWork (by simpa using hrefused)).1
    exact .of_halted h.params h.mem (h.status.congr rfl rfl rfl rfl) he

/-- LZW_START leaves a run whose header is pending (42_lzw.md R163; log 9). -/
theorem lzwInit_run {s : State} (h : LzwLegal s) : LzwRun (lzwInit s) where
  check := { h with }
  fmt := rfl
  pos := Nat.zero_le _
  pix := Nat.zero_le _
  good := fun hd => absurd rfl hd
  block := fun hd => absurd rfl hd

theorem execLzwStart_keepsInv {s : State} (h : Inv s) : KeepsInv (execLzwStart s) := by
  unfold execLzwStart
  split_ifs with hrefused hcheck
  · exact refuse_inv h
  · exact raise_inv h.params h.mem (by decide)
  · have hlegal : LzwLegal (beginUnit .lzw s) := { (State.lzwCheck_iff s).1 (by simpa using hcheck) with }
    have hrun := lzwInit_run hlegal
    exact .of_lzwRun h.params (State.zeroFill_wf _ _ _ h.mem) (.of_started rfl rfl rfl (.inl rfl)) rfl
      { hrun with check := { hrun.check with } }

/-- `pngInit` changes the memory, the output format, the counters and the PNG unit. -/
theorem pngInit_eq (s : State) :
    pngInit s = { s with
      mem := (pngInit s).mem
      outFmt := pngOutFmt s.inFmt.colorType.toNat s.inFmt.bitDepth.toNat
      inPos := 0
      pixCnt := 0
      png := { s.png with
        bands := BitVec.ofNat 3 (pngBands s.inFmt.colorType.toNat)
        alpha := pngAlpha s.inFmt.colorType.toNat
        bpp := BitVec.ofNat 4 (max 1 (pngBands s.inFmt.colorType.toNat * s.inFmt.bitDepth.toNat / 8)) } } := by
  unfold pngInit
  dsimp only
  split <;> rfl

theorem pngInit_wf {s : State} (h : Memory.wf s.mem) : Memory.wf (pngInit s).mem := by
  unfold pngInit
  dsimp only
  split
  · exact State.zeroFill_wf _ _ _ (State.zeroFill_wf _ _ _ h)
  · exact State.zeroFill_wf _ _ _ h

/-- PNG_START fixes a legal decode with its input unread (43_png_unfilter.md R213, R214). -/
theorem pngInit_setup {s : State} (h : PngLegal s (pngBands s.inFmt.colorType.toNat)) : PngSetup (pngInit s) := by
  obtain ⟨hbands, -, -, hbpp⟩ := pngTable_sizes _ h.pair
  dsimp only at hbands hbpp
  have ebands : (BitVec.ofNat 3 (pngBands s.inFmt.colorType.toNat)).toNat = pngBands s.inFmt.colorType.toNat := by
    rw [BitVec.toNat_ofNat]; omega
  rw [pngInit_eq]
  exact {
    check := by dsimp only; rw [ebands]; exact { h with }
    fmt := rfl
    alpha := rfl
    bpp := by
      dsimp only
      rw [ebands, BitVec.toNat_ofNat]
      exact Nat.mod_eq_of_lt hbpp
    pos := Nat.zero_le _ }

theorem PngSetup.with_engine {s : State} (h : PngSetup s) (engine : EngState) : PngSetup { s with engine := engine } :=
  { h with check := { h.check with } }

theorem execPngStart_keepsInv {s : State} (h : Inv s) : KeepsInv (execPngStart s) := by
  unfold execPngStart
  split_ifs with hrefused hcheck
  · exact refuse_inv h
  · exact raise_inv h.params h.mem (by decide)
  · have hlegal := (State.pngCheck_iff s).1 (by simpa using hcheck)
    have hset : PngSetup (pngInit (beginUnit .png s)) := pngInit_setup { hlegal with }
    have hm : Memory.wf (pngInit (beginUnit .png s)).mem := pngInit_wf h.mem
    rw [pngInit_eq] at hset ⊢
    exact enterPass_inv (hset.with_engine .busy) h.params hm
      (.of_started rfl rfl rfl (.inr rfl)) rfl rfl (Nat.le_refl 1) rfl

/-- Every command word's instruction keeps the invariant: the 29 reserved rows are refused. -/
theorem exec_decodeCmd_keepsInv {s : State} (h : Inv s) (w : Word) : KeepsInv (exec (decodeCmd w) s) := by
  unfold decodeCmd
  iterate 29 refine exec_ite_keepsInv (refuse_inv h) ?_
  refine exec_ite_keepsInv h ?_
  refine exec_ite_keepsInv (execReset_keepsInv h) ?_
  refine exec_ite_keepsInv (execAbort_keepsInv h) ?_
  refine exec_ite_keepsInv (execPbClear_keepsInv h) ?_
  refine exec_ite_keepsInv (execPbSet_keepsInv h) ?_
  refine exec_ite_keepsInv (execPbGet_keepsInv h) ?_
  exact exec_ite_keepsInv (execLzwStart_keepsInv h) (execPngStart_keepsInv h)

/-! ### A step keeps the invariant -/

theorem fetchHost_keepsInv {s : State} (h : Inv s) (c : LzwCtx) : (fetchHost s).KeepsInv c := by
  have hrest (rest : List HostEvent) : Inv { s with inbox := rest } := h.with_bookkeeping ..
  unfold fetchHost
  split
  · trivial
  · exact powerOnReset_inv h.params
  · split
    · exact exec_decodeCmd_keepsInv (respond_inv (hrest _) _) _
    · exact busAccess_inv (hrest _) _

theorem fetchEngine_keepsInv {s : State} (h : Inv s) (hb : s.engine = .busy) : (fetchEngine s).KeepsInv s.lzw.ctx := by
  unfold fetchEngine
  split
  · next hu => exact fetchLzw_keepsInv h hb hu
  · next hu => exact fetchPng_keepsInv h hb hu
  · trivial
  · trivial

theorem fetch_keepsInv {s : State} (h : Inv s) : (fetch s).KeepsInv s.lzw.ctx := by
  unfold fetch
  split_ifs with hhost hbusy
  · exact fetchHost_keepsInv h _
  · exact fetchEngine_keepsInv h ((isBusy_iff s).1 hbusy)
  · trivial

/-- Settles O3: what a step finds to do leads to the invariant, and the tick takes no part in it. -/
theorem stepKeepsInvariant : Obligations.StepKeepsInvariant := by
  intro s t h hstep
  have hf := fetch_keepsInv h
  rcases step_cases s t hstep with ⟨e, s1, u, hw, he, rfl⟩ | ⟨u, hw, rfl⟩ | ⟨-, rfl⟩
  · rw [hw] at hf
    exact tick_inv ((keepsInv_iff _).1 hf u he)
  · rw [hw] at hf
    exact tick_inv hf
  · exact h

end Sys2Proof.Machine

/-! ### Fields of a register word -/

namespace Sys2Proof

/-- A field of a word given as a sum is the quotient by the weight of its lowest bit. -/
theorem extractLsb'_ofNat_word (n k w : Nat) (h : k + w ≤ 32) :
    (BitVec.ofNat 32 n).extractLsb' k w = BitVec.ofNat w (n / 2 ^ k) := by
  apply BitVec.eq_of_getLsbD_eq
  intro i hi
  have hik : k + i < 32 := by omega
  rw [BitVec.getLsbD_extractLsb', BitVec.getLsbD_ofNat, BitVec.getLsbD_ofNat, Nat.testBit_div_two_pow]
  simp [hi, hik, Nat.add_comm]

/-- A field of a word, given by its number. -/
theorem extractLsb'_ofNat_of_field {n v : Nat} (k w : Nat) (h : k + w ≤ 32) (hv : n / 2 ^ k % 2 ^ w = v) :
    (BitVec.ofNat 32 n).extractLsb' k w = BitVec.ofNat w v := by
  rw [extractLsb'_ofNat_word n k w h, ← hv]
  exact BitVec.eq_of_toNat_eq (by simp)

/-- A field of one bit. -/
theorem getLsbD_ofNat_of_field {n : Nat} {b : Bool} (k : Nat) (h : k < 32) (hv : n / 2 ^ k % 2 = b.toNat) :
    (BitVec.ofNat 32 n).getLsbD k = b := by
  rw [BitVec.getLsbD_ofNat, decide_eq_true h, Bool.true_and, Nat.testBit_eq_decide_div_mod_eq, hv]
  cases b <;> rfl

/-- A field whose values are numbered by a table reads the number of its value. -/
theorem extractLsb'_ofNat_of_table {α : Type} {value : α → Nat} {x : α} {n : Nat} {table : List (α × Word)} (k w : Nat)
    (h : k + w ≤ 32) (hv : n / 2 ^ k % 2 ^ w = value x)
    (htable : ∀ p ∈ table, BitVec.ofNat w (value p.1) = p.2.setWidth w) :
    ∀ p ∈ table, x = p.1 → (BitVec.ofNat 32 n).extractLsb' k w = p.2.setWidth w := by
  intro p hp heq
  rw [extractLsb'_ofNat_of_field k w h hv, heq]
  exact htable p hp

end Sys2Proof

namespace Sys2Proof.Machine

/-! ### What each register reads as (10_state.md R22) -/

section
variable (s : State)

@[simp] theorem readReg_cmd : readReg s 0x00 = 0 := rfl
@[simp] theorem readReg_status : readReg s 0x04 = s.status := rfl
@[simp] theorem readReg_irqEn : readReg s 0x08 = BitVec.ofNat 32 s.irqEn.toNat := rfl
@[simp] theorem readReg_width : readReg s 0x0C = s.width := rfl
@[simp] theorem readReg_height : readReg s 0x10 = s.height := rfl
@[simp] theorem readReg_inFmt : readReg s 0x14 = s.inFmt.toWord := rfl
@[simp] theorem readReg_outFmt : readReg s 0x18 = s.outFmt.toWord := rfl
@[simp] theorem readReg_stride : readReg s 0x1C = s.strideReg := rfl
@[simp] theorem readReg_inLen : readReg s 0x20 = s.inLen := rfl
@[simp] theorem readReg_inPos : readReg s 0x24 = s.inPos := rfl
@[simp] theorem readReg_pixCnt : readReg s 0x28 = s.pixCnt := rfl
@[simp] theorem readReg_pxX : readReg s 0x2C = s.pxX := rfl
@[simp] theorem readReg_pxY : readReg s 0x30 = s.pxY := rfl
@[simp] theorem readReg_pxC : readReg s 0x34 = s.pxC := rfl
@[simp] theorem readReg_pxV : readReg s 0x38 = s.pxV := rfl

theorem readReg_lzwStat (h : s.engine ≠ .busy) : readReg s 0x3C = s.lzwStat := by
  have hb := (isBusy_false_iff s).2 h
  simp [readReg, hb]

end

@[simp] theorem storeReg_at_inFmt (s : State) (v : Word) : storeReg s 0x14 v = { s with inFmt := InFmt.ofWord v } := rfl
@[simp] theorem storeReg_at_outFmt (s : State) (v : Word) : storeReg s 0x18 v = { s with outFmt := OutFmt.ofWord v } := rfl

/-! ### The two format registers (10_state.md R27, R28) -/

/-- The word of a format register: fields of 5, 3 and 1 bits at bits 0, 8 and 16. -/
def fmtWord (lo : BitVec 5) (mid : BitVec 3) (hi : Bool) : Word :=
  BitVec.ofNat 32 (lo.toNat + mid.toNat * 2 ^ 8 + hi.toNat * 2 ^ 16)

theorem InFmt.toWord_eq (f : InFmt) : f.toWord = fmtWord f.bitDepth f.colorType f.interlace := rfl

theorem OutFmt.toWord_eq (f : OutFmt) : f.toWord = fmtWord f.bpc f.ncomp f.mask := rfl

/-- The bits that a format register stores. -/
theorem getLsbD_fmtMask (i : Nat) : (0x0001071F : Word).getLsbD i = (decide (i < 5 ∨ 8 ≤ i ∧ i < 11 ∨ i = 16)) := by
  rcases Nat.lt_or_ge i 32 with hlt | hge
  · revert i; decide
  · rw [BitVec.getLsbD_of_ge _ _ hge]
    exact (decide_eq_false (by omega)).symm

theorem getLsbD_fmtWord (lo : BitVec 5) (mid : BitVec 3) (hi : Bool) (i : Nat) :
    (fmtWord lo mid hi).getLsbD i =
      if i < 8 then lo.getLsbD i else if i < 16 then mid.getLsbD (i - 8) else decide (i = 16) && hi := by
  have hlo : lo.toNat < 2 ^ 8 := lo.isLt.trans (by decide)
  have hmid : mid.toNat < 2 ^ 8 := mid.isLt.trans (by decide)
  have hsum : lo.toNat + mid.toNat * 2 ^ 8 + hi.toNat * 2 ^ 16 = 2 ^ 8 * (2 ^ 8 * hi.toNat + mid.toNat) + lo.toNat := by
    ring
  rw [fmtWord, hsum, BitVec.getLsbD_ofNat, Nat.testBit_two_pow_mul_add _ hlo, Nat.testBit_two_pow_mul_add _ hmid,
    Nat.testBit_bool_toNat, BitVec.testBit_toNat, BitVec.testBit_toNat]
  rcases Nat.lt_or_ge i 8 with h8 | h8
  · simp [h8, show i < 32 by omega]
  rcases Nat.lt_or_ge i 16 with h16 | h16
  · simp [show ¬ i < 8 by omega, h16, show i - 8 < 8 by omega, show i < 32 by omega]
  · rw [if_neg (by omega), if_neg (by omega), if_neg (by omega), if_neg (by omega)]
    rcases eq_or_ne i 16 with rfl | hne
    · simp
    · simp [hne, show i - 8 - 8 ≠ 0 by omega]

/-- A format register reads the bits written to its fields. -/
theorem fmtWord_of_word (v : Word) :
    fmtWord (v.extractLsb' 0 5) (v.extractLsb' 8 3) (v.getLsbD 16) = v &&& 0x0001071F := by
  apply BitVec.eq_of_getLsbD_eq
  intro i _
  rw [getLsbD_fmtWord, BitVec.getLsbD_and, getLsbD_fmtMask, BitVec.getLsbD_extractLsb', BitVec.getLsbD_extractLsb']
  rcases Nat.lt_or_ge i 8 with h8 | h8
  · have hfields : (i < 5 ∨ 8 ≤ i ∧ i < 11 ∨ i = 16) ↔ i < 5 := by omega
    simp [h8, hfields, Bool.and_comm]
  rw [if_neg (by omega)]
  rcases Nat.lt_or_ge i 16 with h16 | h16
  · have hfields : (i < 5 ∨ 8 ≤ i ∧ i < 11 ∨ i = 16) ↔ i - 8 < 3 := by omega
    have hindex : 8 + (i - 8) = i := by omega
    simp [h16, hfields, hindex, Bool.and_comm]
  · have hfields : (i < 5 ∨ 8 ≤ i ∧ i < 11 ∨ i = 16) ↔ i = 16 := by omega
    rw [if_neg (by omega)]
    simp only [hfields]
    rcases eq_or_ne i 16 with rfl | hne
    · simp
    · simp [hne]

theorem fmtWord_lo (lo : BitVec 5) (mid : BitVec 3) (hi : Bool) : (fmtWord lo mid hi).extractLsb' 0 5 = lo := by
  apply BitVec.eq_of_getLsbD_eq
  intro i hlt
  rw [BitVec.getLsbD_extractLsb', getLsbD_fmtWord]
  simp [hlt, show i < 8 by omega]

theorem fmtWord_mid (lo : BitVec 5) (mid : BitVec 3) (hi : Bool) : (fmtWord lo mid hi).extractLsb' 8 3 = mid := by
  apply BitVec.eq_of_getLsbD_eq
  intro i hlt
  rw [BitVec.getLsbD_extractLsb', getLsbD_fmtWord]
  simp [hlt, show 8 + i < 16 by omega]

theorem fmtWord_hi (lo : BitVec 5) (mid : BitVec 3) (hi : Bool) : (fmtWord lo mid hi).getLsbD 16 = hi := by
  rw [getLsbD_fmtWord]
  rfl

/-- The bits outside the fields read 0. -/
theorem fmtWord_rest (lo : BitVec 5) (mid : BitVec 3) (hi : Bool) : fmtWord lo mid hi &&& ~~~0x0001071F = 0 := by
  have hmask := fmtWord_of_word (fmtWord lo mid hi)
  rw [fmtWord_lo, fmtWord_mid, fmtWord_hi] at hmask
  rw [hmask, BitVec.and_assoc, BitVec.and_not_self]
  simp

/-- Settles O58: a write stores the three fields, and they are all that the register reads. -/
theorem formatRegistersKeepTheirFields : Obligations.FormatRegistersKeepTheirFields := by
  intro s v
  constructor
  · rw [storeReg_at_inFmt, readReg_inFmt, InFmt.toWord_eq]
    exact fmtWord_of_word v
  · rw [storeReg_at_outFmt, readReg_outFmt, OutFmt.toWord_eq]
    exact fmtWord_of_word v

/-! ### STATUS (10_state.md R24) and LZW_STAT (R33) -/

theorem EngState.value_lt (e : EngState) : e.value < 4 := by cases e <;> decide
theorem UnitSel.value_lt (u : UnitSel) : u.value < 4 := by cases u <;> decide
theorem FaultCode.value_lt (c : FaultCode) : c.value < 16 := by cases c <;> decide
theorem EndReason.value_lt (r : EndReason) : r.value < 16 := by cases r <;> decide

section
variable (s : State)

/-- STATUS is a sum of fields, each below the weight of the next. -/
theorem status_fields : ∃ n, s.status = BitVec.ofNat 32 n ∧ n / 2 ^ 0 % 2 ^ 2 = s.engine.value ∧
    n / 2 ^ 2 % 2 = s.cmdErr.toNat ∧ n / 2 ^ 3 % 2 = s.termSeen.toNat ∧
    n / 2 ^ 4 % 2 ^ 4 = s.faultCode.value ∧ n / 2 ^ 8 % 2 ^ 4 = s.endReason.value ∧
    n / 2 ^ 12 % 2 = s.irq.toNat ∧ n / 2 ^ 13 % 2 ^ 2 = s.unit.value ∧ n / 2 ^ 15 = 0 := by
  have he := s.engine.value_lt
  have hc := s.cmdErr.toNat_lt
  have ht := s.termSeen.toNat_lt
  have hf := s.faultCode.value_lt
  have hr := s.endReason.value_lt
  have hi := s.irq.toNat_lt
  have hu := s.unit.value_lt
  refine ⟨_, rfl, ?_⟩
  omega

/-- LZW_STAT holds the three values of the LZW unit. -/
theorem lzwStat_fields : s.lzwStat.extractLsb' 0 4 = s.lzw.dataSize ∧ s.lzwStat.extractLsb' 4 4 = s.lzw.codeSize ∧
    s.lzwStat.extractLsb' 8 13 = s.lzw.available ∧ s.lzwStat.extractLsb' 21 11 = 0 := by
  have hd := s.lzw.dataSize.isLt
  have hc := s.lzw.codeSize.isLt
  have ha := s.lzw.available.isLt
  unfold State.lzwStat
  refine ⟨?_, ?_, ?_, extractLsb'_ofNat_of_field (v := 0) 21 11 (by decide) (by omega)⟩
  · rw [extractLsb'_ofNat_of_field (v := s.lzw.dataSize.toNat) 0 4 (by decide) (by omega), BitVec.ofNat_toNat,
      BitVec.setWidth_eq]
  · rw [extractLsb'_ofNat_of_field (v := s.lzw.codeSize.toNat) 4 4 (by decide) (by omega), BitVec.ofNat_toNat,
      BitVec.setWidth_eq]
  · rw [extractLsb'_ofNat_of_field (v := s.lzw.available.toNat) 8 13 (by decide) (by omega), BitVec.ofNat_toNat,
      BitVec.setWidth_eq]

end

theorem irq_iff (s : State) : s.irq = true ↔ s.irqEn = true ∧ (s.engine = .done ∨ s.engine = .fault) := by
  simp [State.irq]

/-- Settles O59: STATUS and LZW_STAT are sums of fields that do not overlap, and every other register is one value or the
three fields of a format. -/
theorem statusShowsItsFields : Obligations.StatusShowsItsFields := by
  intro s
  refine ⟨?status, ?lzwStat, ?inFmt, ?outFmt, ?others⟩
  case status =>
    obtain ⟨n, hn, he, hc, ht, hf, hr, hi, hu, hz⟩ := status_fields s
    rw [readReg_status, hn]
    exact ⟨extractLsb'_ofNat_of_table 0 2 (by decide) he (by decide),
      getLsbD_ofNat_of_field 2 (by decide) hc,
      getLsbD_ofNat_of_field 3 (by decide) ht,
      extractLsb'_ofNat_of_table 4 4 (by decide) hf (by decide),
      extractLsb'_ofNat_of_table 8 4 (by decide) hr (by decide),
      getLsbD_ofNat_of_field 12 (by decide) hi,
      irq_iff s,
      extractLsb'_ofNat_of_table 13 2 (by decide) hu (by decide),
      extractLsb'_ofNat_of_field 15 17 (by decide) (by rw [hz, Nat.zero_mod])⟩
  case lzwStat =>
    intro hb
    rw [readReg_lzwStat s hb]
    exact lzwStat_fields s
  case inFmt =>
    rw [readReg_inFmt, InFmt.toWord_eq]
    exact ⟨fmtWord_lo .., fmtWord_mid .., fmtWord_hi .., fmtWord_rest ..⟩
  case outFmt =>
    rw [readReg_outFmt, OutFmt.toWord_eq]
    exact ⟨fmtWord_lo .., fmtWord_mid .., fmtWord_hi .., fmtWord_rest ..⟩
  case others =>
    have hirq : BitVec.ofNat 32 s.irqEn.toNat = if s.irqEn then 1 else 0 := by cases s.irqEn <;> rfl
    exact ⟨readReg_cmd s, (readReg_irqEn s).trans hirq, readReg_width s, readReg_height s, readReg_inLen s,
      readReg_inPos s, readReg_pixCnt s, readReg_pxX s, readReg_pxY s, readReg_pxC s, readReg_pxV s⟩

theorem strideOf_eq (w n b : Nat) : strideOf w n b = (w * n * b + 7) / 8 := rfl

/-- Settles O60: the saturated stride fits the register. -/
theorem strideIsDerived : Obligations.StrideIsDerived := by
  intro s
  rw [readReg_stride, State.strideReg, BitVec.toNat_ofNat, State.stride, strideOf_eq]
  omega

/-! ### A step runs the decoded instruction -/

theorem hostMoves_iff (s : State) :
    s.hostMoves = true ↔ s.inbox ≠ [] ∧ (s.engine ≠ .busy ∨ s.hostNext = true) := by
  simp [State.hostMoves, State.isBusy]

/-- Settles O14: in each context the fetch answers the word, and the step executes what it decodes to. -/
theorem stepRunsDecodedInstruction : Obligations.StepRunsDecodedInstruction := by
  refine ⟨?command, ?length, ?code, ?filter⟩
  case command =>
    intro s w rest hi hturn
    exact step_of_word (fetch_of_command ((hostMoves_iff s).2 ⟨by simp [hi], hturn⟩) hi rfl)
  case length =>
    intro s hm hb hu hd hp ht hbits hcount hlt
    have hread := fetchLzw_of_needsByte hd hp ht hbits
    rw [readByte?_of_lt hlt] at hread
    exact step_of_word ((fetch_of_lzw hm hb hu).trans (hread.trans (if_pos hcount)))
  case code =>
    intro s hm hb hu hd hp ht hbits
    exact step_of_word ((fetch_of_lzw hm hb hu).trans (fetchLzw_of_code hd hp ht hbits))
  case filter =>
    intro s hm hb hu hlt
    exact step_of_word ((fetch_of_png hm hb hu).trans (fetchPng_of_lt hlt))

end Sys2Proof.Machine

/-! ## The memory and the bus (20_memory.md) -/

/-! ### Where a sample lies in OUTBUF (41_pixel_buffer.md R134, 20_memory.md R63) -/

namespace Sys2Proof.Machine

/-- A sample in bounds ends before the used region of OUTBUF does, counted in bits. -/
theorem State.bitAddr_add_bpc_le {s : State} {x y c : Nat} (h : InBounds s x y c) :
    s.bitAddr x y c + s.outFmt.bpc.toNat ≤ 8 * s.usedOut := by
  obtain ⟨hx, hy, hc⟩ := h
  have hsample : x * s.outFmt.ncomp.toNat + c + 1 ≤ s.width.toNat * s.outFmt.ncomp.toNat :=
    calc x * s.outFmt.ncomp.toNat + c + 1 ≤ (x + 1) * s.outFmt.ncomp.toNat := by rw [Nat.succ_mul]; omega
      _ ≤ s.width.toNat * s.outFmt.ncomp.toNat := Nat.mul_le_mul_right _ hx
  calc s.bitAddr x y c + s.outFmt.bpc.toNat
      = 8 * y * s.stride + (x * s.outFmt.ncomp.toNat + c + 1) * s.outFmt.bpc.toNat := by unfold State.bitAddr; ring
    _ ≤ 8 * y * s.stride + s.width.toNat * s.outFmt.ncomp.toNat * s.outFmt.bpc.toNat :=
        Nat.add_le_add_left (Nat.mul_le_mul_right _ hsample) _
    _ ≤ 8 * y * s.stride + 8 * s.stride := Nat.add_le_add_left (le_mul_strideOf ..) _
    _ = 8 * (s.stride * (y + 1)) := by ring
    _ ≤ 8 * s.usedOut := Nat.mul_le_mul_left _ (Nat.mul_le_mul_left _ hy)

/-! ### What leaves the unused bytes alone -/

/-- Every byte outside the used regions of `s` (20_memory.md R63, R64) reads in `t` as it does in `s`. -/
def KeepsUnused (s t : State) : Prop := ∀ a, ¬ InUsedOut s a → ¬ InUsedMask s a → t.byteAt a = s.byteAt a

theorem State.byteAt_congr {s t : State} (hm : t.mem = s.mem) (he : t.epoch = s.epoch) (a : Nat) :
    t.byteAt a = s.byteAt a := by
  rw [State.byteAt, State.byteAt, hm, he]

/-- What leaves the memory alone keeps every byte. -/
theorem KeepsUnused.of_mem {s t : State} (hm : t.mem = s.mem) (he : t.epoch = s.epoch) : KeepsUnused s t :=
  fun a _ _ => State.byteAt_congr hm he a

/-- Between `s` and `t` pixels were placed: memory and PIXCNT may differ, the memory only in the used regions. -/
def OnlyPlaced (s t : State) : Prop :=
  ∃ (mem : Memory) (pixCnt : Word), t = { s with mem := mem, pixCnt := pixCnt } ∧ KeepsUnused s t

theorem OnlyPlaced.refl (s : State) : OnlyPlaced s s := ⟨_, _, rfl, .of_mem rfl rfl⟩

/-- The bytes are kept in any state that holds the memory which the pixels were placed in. -/
theorem OnlyPlaced.keepsUnused {s t u : State} (h : OnlyPlaced s t) (hm : u.mem = t.mem) (he : u.epoch = s.epoch) :
    KeepsUnused s u := by
  obtain ⟨_, _, rfl, hk⟩ := h
  exact fun a ho hmask => (State.byteAt_congr hm he a).trans (hk a ho hmask)

theorem OnlyPlaced.trans {s t u : State} (h : OnlyPlaced s t) (k : OnlyPlaced t u) : OnlyPlaced s u := by
  obtain ⟨_, _, rfl, hst⟩ := h
  obtain ⟨_, _, rfl, htu⟩ := k
  exact ⟨_, _, rfl, fun a ho hm => (htu a ho hm).trans (hst a ho hm)⟩

/-- Placing one thing after another. -/
theorem OnlyPlaced.foldl {s : State} {f : State → Nat → State} {ks : List Nat}
    (h : ∀ t, OnlyPlaced s t → ∀ k ∈ ks, OnlyPlaced t (f t k)) : OnlyPlaced s (ks.foldl f s) :=
  List.foldlRecOn ks f (.refl s) fun t ht k hk => ht.trans (h t ht k hk)

/-- Placing a sample in bounds writes no byte outside the used region of OUTBUF. -/
theorem setPixel_onlyPlaced {s : State} {x y c : Nat} (h : InBounds s x y c) (hdepth : s.outFmt.bpc.toNat ≠ 0)
    (v : Nat) :
    OnlyPlaced s (setPixel s x y c v) := by
  refine ⟨_, _, setPixel_eq s x y c v, fun a ho _ => ?_⟩
  have hend := State.bitAddr_add_bpc_le h
  have hpoke (bytes : List Byte) (hlen : s.bitAddr x y c / 8 + bytes.length ≤ s.usedOut) :
      (s.poke .outbuf (s.byteIdx x y c) bytes).byteAt a = s.byteAt a := by
    refine State.byteAt_poke_outside s .outbuf _ bytes a fun hin => ho ?_
    simp only [Space.base, State.byteIdx] at hin
    exact ⟨by omega, by omega⟩
  unfold setPixel
  dsimp only
  split_ifs with h8 h16
  all_goals
    refine hpoke _ ?_
    simp only [List.length_cons, List.length_nil]
    omega

/-! ### The LZW unit's part -/

/-- Every row of the interlaced order is a row of the image (42_lzw.md R179). -/
theorem lt_of_mem_gifOrder {h r : Nat} (hr : r ∈ gifOrder h) : r < h := by
  have hrows (start step : Nat) (hstep : 0 < step) (hmem : r ∈ gifRows h start step) : r < h := by
    obtain ⟨i, hi, rfl⟩ := List.mem_map.1 hmem
    rw [List.mem_range, ceilDiv, Nat.lt_div_iff_mul_lt hstep] at hi
    rw [Nat.mul_comm step]
    omega
  simp only [gifOrder, List.mem_append] at hr
  rcases hr with ((hr | hr) | hr) | hr
  all_goals exact hrows _ _ (by decide) hr

theorem gifRow_lt {interlace : Bool} {h i : Nat} (hi : i < h) : gifRow interlace h i < h := by
  unfold gifRow
  split
  · rw [List.getD_eq_getElem?_getD]
    cases hget : (gifOrder h)[i]? with
    | none => exact Nat.zero_lt_of_lt hi
    | some r => exact lt_of_mem_gifOrder (List.mem_of_getElem? hget)
  · exact hi

/-- A popped pixel is placed in bounds (42_lzw.md R178, R179). -/
theorem popPixel_keepsUnused {s : State} (r : LzwRun s) (hp : s.pixCnt.toNat < s.width.toNat * s.height.toNat) :
    KeepsUnused s (popPixel s) := by
  have hbounds : InBounds s (s.pixCnt.toNat % s.width.toNat)
      (gifRow s.inFmt.interlace s.height.toNat (s.pixCnt.toNat / s.width.toNat)) 0 :=
    ⟨Nat.mod_lt _ r.check.size.1, gifRow_lt (Nat.div_lt_of_lt_mul hp), by rw [r.fmt]; exact Nat.one_pos⟩
  have hdepth : s.outFmt.bpc.toNat ≠ 0 := by
    intro h0
    have hlegal := r.check.depth
    rw [r.fmt] at h0
    rw [show s.inFmt.bitDepth.toNat = 0 from h0] at hlegal
    exact absurd hlegal (by decide)
  exact (setPixel_onlyPlaced hbounds hdepth _).keepsUnused rfl (by rw [popPixel_eq])

theorem lzwHeader_keepsUnused (s : State) : KeepsUnused s (lzwHeader s) := by
  rcases lzwHeader_cases s with ⟨-, h⟩ | ⟨ds, -, -, ⟨-, h⟩ | ⟨-, -, h⟩⟩ <;> rw [h] <;> exact .of_mem rfl rfl

theorem exec_decodeLen_keepsUnused {b : Byte} {s t : State} (h : exec (decodeLen b) s = .next t) : KeepsUnused s t := by
  rcases exec_decodeLen_cases b s with heq | ⟨len, heq⟩ <;> rw [heq] at h
  · cases h
    exact .of_mem rfl rfl
  · rcases openSubBlock_cases len s t h with ⟨-, rfl⟩ | ⟨-, rfl⟩ <;> exact .of_mem rfl rfl

theorem decodeStep_keepsUnused {code : BitVec 12} {s t : State} (h : decodeStep code s = .next t) :
    KeepsUnused s t := by
  rcases decodeStep_cases h with ⟨_, rfl⟩ | ⟨_, _, _, -, -, -, -, rfl⟩ <;> exact .of_mem rfl rfl

theorem execLzwBad_keepsUnused (code : BitVec 12) {s t : State} (h : execLzwBad code s = .next t) :
    KeepsUnused s t := by
  unfold execLzwBad at h
  split at h <;> cases h <;> exact .of_mem rfl rfl

theorem execLzwFirst_keepsUnused (code : BitVec 12) {s t : State} (h : execLzwFirst code s = .next t) :
    KeepsUnused s t := by
  unfold execLzwFirst at h
  split at h <;> cases h
  exact .of_mem rfl rfl

/-- No code writes the memory: its pixels go on the stack. -/
theorem exec_decodeCode_keepsUnused {c : LzwCtx} {code : BitVec 12} {s t : State}
    (h : exec (decodeCode c code) s = .next t) : KeepsUnused s t := by
  unfold decodeCode at h
  split_ifs at h
  · cases h
    exact .of_mem rfl rfl
  · cases h
    exact .of_mem rfl rfl
  · exact execLzwBad_keepsUnused code h
  · exact execLzwFirst_keepsUnused code h
  all_goals exact decodeStep_keepsUnused h

/-- What a step finds to do in state `s` leads to no change of an unused byte; a word that it reads decodes in the
context of `s`. -/
def Fetched.KeepsUnused (s : State) : Fetched → Prop
  | .word e u => ∀ t, exec (decode s.lzw.ctx e) u = .next t → Machine.KeepsUnused s t
  | .work u => Machine.KeepsUnused s u
  | .wait => True
  | .stuck _ => True

theorem readByte?_keepsUnused {s t u : State} {b : Byte} (h : readByte? s = some (b, t)) (hu : KeepsUnused t u) :
    KeepsUnused s u := by
  obtain ⟨-, -, rfl⟩ := (readByte?_some s t b).1 h
  exact hu

/-- One pass through the loop of 42_lzw.md R169 writes at most the pixel it pops. -/
theorem fetchLzw_keepsUnused {s : State} (r : LzwRun s) : (fetchLzw s).KeepsUnused s := by
  unfold fetchLzw
  split
  · exact lzwHeader_keepsUnused s
  split
  · exact KeepsUnused.of_mem rfl rfl
  next hroom =>
  split
  · exact popPixel_keepsUnused r (by omega)
  split
  · cases hread : readByte? s with
    | none => exact KeepsUnused.of_mem rfl rfl
    | some p =>
      dsimp only
      split
      · exact fun t h => readByte?_keepsUnused hread (exec_decodeLen_keepsUnused h)
      · exact readByte?_keepsUnused hread (.of_mem rfl rfl)
  · intro t h
    have hcode : KeepsUnused { s with lzw := s.lzw.dropCode } t := exec_decodeCode_keepsUnused h
    exact hcode

/-! ### The PNG unit's part -/

/-- The component count and depth that PNG_START writes (43_png_unfilter.md R213). -/
theorem pngTable_outFmt : ∀ e ∈ pngTable, (pngOutFmt e.1 e.2.1).bpc.toNat ≠ 0 ∧
    (pngOutFmt e.1 e.2.1).ncomp.toNat = e.2.2 - (pngAlpha e.1).toNat := by
  decide

theorem PngSetup.of_placed {s t : State} (h : PngSetup s) (ht : OnlyPlaced s t) : PngSetup t := by
  obtain ⟨_, _, rfl, -⟩ := ht
  exact { h with check := { h.check with } }

theorem PngPass.of_placed {s t : State} (h : PngPass s) (ht : OnlyPlaced s t) : PngPass t := by
  obtain ⟨_, _, rfl, -⟩ := ht
  exact { h with }

/-- A sample of a pixel in bounds goes to its place in OUTBUF, the alpha sample to the pixel's byte of MASKBUF
(43_png_unfilter.md R230, R231). -/
theorem placeSample_onlyPlaced {s : State} (hset : PngSetup s) {x y k : Nat} (hx : x < s.width.toNat)
    (hy : y < s.height.toNat) (hk : k < s.png.bands.toNat) (row : List Byte) (sx : Nat) :
    OnlyPlaced s (placeSample row x y sx s k) := by
  obtain ⟨hdepth, hcomps⟩ := pngTable_outFmt _ hset.check.pair
  rw [← hset.fmt] at hdepth hcomps
  dsimp only at hcomps
  rw [← hset.alpha] at hcomps
  unfold placeSample
  dsimp only
  split
  · next halpha =>
    obtain ⟨ha, -⟩ := Bool.and_eq_true_iff.1 halpha
    have hmask : s.outFmt.mask = true := by rw [hset.fmt, ← ha, hset.alpha]; rfl
    have hpix : y * s.width.toNat + x + 1 ≤ s.usedMask :=
      calc y * s.width.toNat + x + 1 ≤ (y + 1) * s.width.toNat := by rw [Nat.succ_mul]; omega
        _ ≤ s.height.toNat * s.width.toNat := Nat.mul_le_mul_right _ hy
        _ = s.usedMask := Nat.mul_comm ..
    refine ⟨_, _, rfl, fun a _ hm => State.byteAt_poke_outside s .maskbuf _ _ a fun hin => hm ⟨hmask, ?_⟩⟩
    simp only [Space.base, List.length_cons, List.length_nil] at hin
    omega
  · next hcolor =>
    refine setPixel_onlyPlaced ⟨hx, hy, ?_⟩ hdepth _
    rw [hcomps]
    cases ha : s.png.alpha with
    | false => exact hk
    | true =>
      simp only [ha, Bool.true_and, beq_iff_eq] at hcolor
      rw [Bool.toNat_true]
      omega

/-- The steps of a pass stay within the image (43_png_unfilter.md R215). -/
theorem add_mul_lt_of_lt_ceilDiv {off st n i : Nat} (hst : 0 < st) (hi : i < ceilDiv (n - off) st) :
    off + st * i < n := by
  rw [ceilDiv, Nat.lt_div_iff_mul_lt hst, Nat.mul_comm i] at hi
  omega

/-- A pixel of the current row is placed in bounds (43_png_unfilter.md R229, R230). -/
theorem placePixel_onlyPlaced {s : State} (hset : PngSetup s) (hpass : PngPass s) {sx : Nat}
    (hsx : sx < s.png.passWidth.toNat) (row : List Byte) : OnlyPlaced s (placePixel row s sx) := by
  obtain ⟨hxst, hyst⟩ := passGeom_steps_pos s.inFmt.interlace s.png.pass.toNat
  have hx := add_mul_lt_of_lt_ceilDiv hxst (hsx.trans_eq hpass.passWidth)
  have hy := add_mul_lt_of_lt_ceilDiv hyst (hpass.srcY.trans_eq hpass.passHeight)
  refine OnlyPlaced.trans (OnlyPlaced.foldl fun t ht k hk => ?_) ⟨_, _, rfl, .of_mem rfl rfl⟩
  have hset' := hset.of_placed ht
  obtain ⟨_, _, rfl, -⟩ := ht
  exact placeSample_onlyPlaced hset' hx hy (List.mem_range.1 hk) row sx

theorem placeRow_onlyPlaced {s : State} (hset : PngSetup s) (hpass : PngPass s) (row : List Byte) :
    OnlyPlaced s (placeRow row s) :=
  OnlyPlaced.foldl fun t ht sx hsx => by
    have hset' := hset.of_placed ht
    have hpass' := hpass.of_placed ht
    obtain ⟨_, _, rfl, -⟩ := ht
    exact placePixel_onlyPlaced hset' hpass' (List.mem_range.1 hsx) row

/-- A filter writes only the pixels of its row. -/
theorem filterRow_keepsUnused {pred : Predictor} {s t : State} (r : PngRun s) (h : filterRow pred s = .next t) :
    KeepsUnused s t := by
  by_cases hshort : s.inLen.toNat < s.inPos.toNat + s.png.rowBytes.toNat
  · rw [filterRow, if_pos hshort] at h
    cases h
    exact .of_mem rfl rfl
  rw [filterRow_of_present (by omega), advanceRow_eq] at h
  cases h
  have hset : PngSetup (s.withRow pred) :=
    { r.setup with
      check := { r.check with }
      pos := by
        have hmod : (s.inPos + s.png.rowBytes).toNat ≤ s.inPos.toNat + s.png.rowBytes.toNat := Nat.mod_le _ _
        exact hmod.trans (Nat.le_of_not_lt hshort) }
  have hpass : PngPass (s.withRow pred) := { r.inPass with }
  have hplaced := placeRow_onlyPlaced hset hpass (scanline pred s)
  exact hplaced.keepsUnused rfl rfl

/-- The two alternatives of a decoding test. -/
theorem exec_ite {P : Result → Prop} {c : Prop} [Decidable c] {i j : Instr} {s : State} (hi : P (exec i s))
    (hj : P (exec j s)) : P (exec (if c then i else j) s) := by
  split
  · exact hi
  · exact hj

/-- What a filter byte can do: it reconstructs a row, or faults when its type is reserved (30_encoding.md R90). -/
theorem exec_decodeFilter_cases {P : Result → Prop} {s : State} (hrow : ∀ pred, P (filterRow pred s))
    (hreserved : P (.next (raise .corruptChunk s))) (b : Byte) : P (exec (decodeFilter b) s) := by
  unfold decodeFilter
  iterate 5 refine exec_ite hreserved ?_
  iterate 5 refine exec_ite (hrow _) ?_
  exact exec_ite hreserved hreserved

/-- One scanline writes at most the pixels of its row. -/
theorem fetchPng_keepsUnused {s : State} (r : PngRun s) : (fetchPng s).KeepsUnused s := by
  unfold fetchPng
  split
  · exact KeepsUnused.of_mem rfl rfl
  · next b s1 hread =>
    obtain ⟨hlt, -, rfl⟩ := (readByte?_some s s1 b).1 hread
    have r1 : PngRun { s with inPos := s.inPos + 1 } :=
      { r with check := { r.check with }, pos := by rw [succ_toNat_of_lt hlt]; exact hlt }
    refine exec_decodeFilter_cases (P := fun res => ∀ t, res = .next t → KeepsUnused s t)
      (fun pred t h => ?_) (fun t h => ?_) b
    · have hrow : KeepsUnused { s with inPos := s.inPos + 1 } t := filterRow_keepsUnused r1 h
      exact hrow
    · cases h
      exact .of_mem rfl rfl

/-! ### A step of a running unit -/

/-- Settles O6: a running unit reaches the memory only by placing samples in bounds, in OUTBUF or in MASKBUF. -/
theorem runWritesOnlyUsedRegions : Obligations.RunWritesOnlyUsedRegions := by
  intro s t h hb hm hstep
  have hfetch : (fetch s).KeepsUnused s := by
    rcases h.status.running hb with hu | hu
    · rw [fetch_of_lzw hm hb hu]
      exact fetchLzw_keepsUnused (h.lzw hb hu)
    · rw [fetch_of_png hm hb hu]
      exact fetchPng_keepsUnused (h.png hb hu)
  rcases step_cases s t hstep with ⟨e, s1, u, hw, he, rfl⟩ | ⟨u, hw, rfl⟩ | ⟨-, rfl⟩
  · rw [hw] at hfetch
    exact hfetch u he
  · rw [hw] at hfetch
    exact hfetch
  · exact KeepsUnused.of_mem rfl rfl

end Sys2Proof.Machine

/-! ### What an access reaches (20_memory.md R62, R65) -/

namespace Sys2Proof.Machine

/-- The windows do not overlap: a byte of one is reached as a byte of that one (00_scope.md R6, 20_memory.md R62). -/
theorem busTarget_of_window {p : Params} (hp : p.legal = true) {addr : Nat} (sp : Space) (hlo : sp.base ≤ addr)
    (hhi : addr < sp.base + windowSize p sp) : busTarget p addr 8 = some (.cell sp (addr - sp.base)) := by
  obtain ⟨⟨-, hin⟩, ⟨-, hout⟩, -⟩ := (Params.legal_iff p).1 hp
  have hhit : windowAt p addr sp = some (.cell sp (addr - sp.base)) :=
    if_pos (by simp only [Bool.and_eq_true, decide_eq_true_eq]; omega)
  have hmiss (sp' : Space) (h : addr < sp'.base ∨ sp'.base + windowSize p sp' ≤ addr) : windowAt p addr sp' = none :=
    if_neg (by simp only [Bool.and_eq_true, decide_eq_true_eq]; omega)
  rw [busTarget, if_neg (by decide), if_pos rfl]
  cases sp with
  | inbuf => rw [hhit]; rfl
  | outbuf =>
    simp only [Space.base, windowSize] at hlo hhi
    rw [hmiss .inbuf (.inr (by simp only [Space.base, windowSize]; omega)), hhit]
    rfl
  | maskbuf =>
    simp only [Space.base, windowSize] at hlo hhi
    rw [hmiss .inbuf (.inr (by simp only [Space.base, windowSize]; omega)),
      hmiss .outbuf (.inr (by simp only [Space.base, windowSize]; omega)), hhit]
    rfl

/-- An aligned access in the register window reaches its register. -/
theorem busTarget_of_reg (p : Params) {addr : Nat} (halign : addr % 4 = 0) (hle : addr ≤ 0x3C) :
    busTarget p addr 32 = some (.reg addr) := by
  simp [busTarget, halign, hle]

/-- Any other access reaches nothing. -/
theorem busTarget_eq_none {p : Params} {addr bits : Nat} (hreg : ¬ (bits = 32 ∧ addr % 4 = 0 ∧ addr ≤ 0x3C))
    (hcell : ∀ sp : Space, bits = 8 → sp.base ≤ addr → ¬ addr < sp.base + windowSize p sp) :
    busTarget p addr bits = none := by
  cases ht : busTarget p addr bits with
  | none => rfl
  | some g =>
    rcases busTarget_cases p addr bits g ht with ⟨hbits, halign, hle, -⟩ | ⟨sp, i, hbits, -, haddr, hi⟩
    · exact absurd ⟨hbits, halign, hle⟩ hreg
    · exact absurd (by omega) (hcell sp hbits (by omega))

theorem commandWord?_eq_none_iff (op : BusOp) :
    commandWord? op = none ↔ ¬ (op.write = true ∧ op.bits = 32 ∧ op.addr = 0) := by
  simp [commandWord?, and_assoc]

/-! ### What an access does, by what it reaches -/

section
variable {op : BusOp} {s : State}

theorem busAccess_of_none (h : busTarget s.params op.addr.toNat op.bits = none) :
    busAccess op s = respond .error s := by
  simp only [busAccess, h]

theorem busAccess_read_reg {offset : Nat} (hw : op.write = false)
    (h : busTarget s.params op.addr.toNat op.bits = some (.reg offset)) :
    busAccess op s = respond (.data (readReg s offset)) s := by
  simp only [busAccess, h, hw]

theorem busAccess_write_reg {offset : Nat} (hw : op.write = true)
    (h : busTarget s.params op.addr.toNat op.bits = some (.reg offset)) :
    busAccess op s = respond .ok (writeReg s offset op.data) := by
  simp only [busAccess, h, hw]

theorem busAccess_read_cell {sp : Space} {i : Nat} (hw : op.write = false)
    (h : busTarget s.params op.addr.toNat op.bits = some (.cell sp i)) :
    busAccess op s = respond (.data ((readCell s sp i).setWidth 32)) s := by
  simp only [busAccess, h, hw]

theorem busAccess_write_cell {sp : Space} {i : Nat} (hw : op.write = true)
    (h : busTarget s.params op.addr.toNat op.bits = some (.cell sp i)) :
    busAccess op s = respond .ok (writeCell s sp i (op.data.setWidth 8)) := by
  simp only [busAccess, h, hw]

/-- A read gives an answer and does nothing else (20_memory.md R67). -/
theorem busAccess_read (hw : op.write = false) : ∃ r, busAccess op s = respond r s := by
  cases h : busTarget s.params op.addr.toNat op.bits with
  | none => exact ⟨_, busAccess_of_none h⟩
  | some g =>
    cases g with
    | reg offset => exact ⟨_, busAccess_read_reg hw h⟩
    | cell sp i => exact ⟨_, busAccess_read_cell hw h⟩

end

/-! ### The queue of events takes no part in an access (log 6) -/

/-- The state with other events pending. -/
def State.withInbox (s : State) (inbox : List HostEvent) : State := { s with inbox := inbox }

theorem storeReg_withInbox (s : State) (inbox : List HostEvent) (offset : Nat) (v : Word) :
    storeReg (s.withInbox inbox) offset v = (storeReg s offset v).withInbox inbox := by
  simp only [storeReg, apply_ite (State.withInbox · inbox)]
  rfl

theorem writeReg_withInbox (s : State) (inbox : List HostEvent) (offset : Nat) (v : Word) :
    writeReg (s.withInbox inbox) offset v = (writeReg s offset v).withInbox inbox := by
  simp only [writeReg, apply_ite (State.withInbox · inbox), ← storeReg_withInbox]
  rfl

theorem writeCell_withInbox (s : State) (inbox : List HostEvent) (sp : Space) (i : Nat) (b : Byte) :
    writeCell (s.withInbox inbox) sp i b = (writeCell s sp i b).withInbox inbox := by
  simp only [writeCell, apply_ite (State.withInbox · inbox)]
  rfl

theorem busAccess_withInbox (op : BusOp) (s : State) (inbox : List HostEvent) :
    busAccess op (s.withInbox inbox) = (busAccess op s).withInbox inbox := by
  cases ht : busTarget s.params op.addr.toNat op.bits with
  | none => rw [busAccess_of_none ht, busAccess_of_none (s := s.withInbox inbox) ht]; rfl
  | some g =>
    cases hw : op.write <;> cases g
    case false.reg => rw [busAccess_read_reg hw ht, busAccess_read_reg (s := s.withInbox inbox) hw ht]; rfl
    case false.cell => rw [busAccess_read_cell hw ht, busAccess_read_cell (s := s.withInbox inbox) hw ht]; rfl
    case true.reg =>
      rw [busAccess_write_reg hw ht, busAccess_write_reg (s := s.withInbox inbox) hw ht, writeReg_withInbox]; rfl
    case true.cell =>
      rw [busAccess_write_cell hw ht, busAccess_write_cell (s := s.withInbox inbox) hw ht, writeCell_withInbox]; rfl

/-- The host's step when its oldest transaction is not a CMD write. -/
theorem step_of_access {s : State} {op : BusOp} {rest : List HostEvent} (hm : s.hostMoves = true)
    (hi : s.inbox = .bus op :: rest) (hc : ¬ (op.write = true ∧ op.bits = 32 ∧ op.addr.toNat = 0)) :
    step s = .next (tick ((busAccess op s).withInbox rest)) := by
  have hnone : commandWord? op = none :=
    (commandWord?_eq_none_iff op).2 fun ⟨hw, hb, ha⟩ => hc ⟨hw, hb, by rw [ha]; rfl⟩
  rw [← busAccess_withInbox]
  exact step_of_work (fetch_of_access hm hi hnone)

/-! ### Refused accesses (20_memory.md R65) -/

/-- Settles O53: an access that reaches nothing is answered with the error alone. -/
theorem refusedAccessIsABusError : Obligations.RefusedAccessIsABusError := by
  intro s op rest _ hi hm hreg hcell
  have hnone : busTarget s.params op.addr.toNat op.bits = none := by
    refine busTarget_eq_none hreg fun sp hbits hlo hhi => hcell ⟨hbits, ?_⟩
    cases sp with
    | inbuf => exact .inl ⟨hlo, hhi⟩
    | outbuf => exact .inr (.inl ⟨hlo, hhi⟩)
    | maskbuf => exact .inr (.inr ⟨hlo, hhi⟩)
  have hcmd : ¬ (op.write = true ∧ op.bits = 32 ∧ op.addr.toNat = 0) := fun ⟨_, hbits, haddr⟩ =>
    hreg ⟨hbits, by rw [haddr], by omega⟩
  rw [step_of_access hm hi hcmd, busAccess_of_none hnone]
  rfl

/-! ### Reads (20_memory.md R67) -/

/-- A byte reads as stored, outside BUSY or in INBUF (20_memory.md R66). -/
theorem readCell_of_stored {s : State} {sp : Space} {addr : Nat} (h : sp = .inbuf ∨ s.engine ≠ .busy)
    (hlo : sp.base ≤ addr) : readCell s sp (addr - sp.base) = s.byteAt addr := by
  have hopen : ¬ (s.isBusy && sp != .inbuf) = true := by
    rcases h with rfl | hb
    · simp
    · simp [(isBusy_false_iff s).2 hb]
  rw [readCell, if_neg hopen, State.peek, Nat.add_sub_cancel' hlo]

/-- Settles O56: no read reaches more than the list of answers, and it is what the register or the byte holds. -/
theorem readsHaveNoSideEffects : Obligations.ReadsHaveNoSideEffects := by
  intro s bits addr data rest hi hm
  have hstep := step_of_access hm hi (by simp)
  refine ⟨?any, ?register, ?byte⟩
  case any =>
    obtain ⟨r, hr⟩ := busAccess_read (op := ⟨false, bits, addr, data⟩) (s := s) rfl
    exact ⟨r, by rw [hstep, hr]; rfl⟩
  case register =>
    rintro rfl halign hle -
    rw [hstep, busAccess_read_reg rfl (busTarget_of_reg _ halign hle)]
    rfl
  case byte =>
    rintro rfl hp hwindow
    have hread (sp : Space) (hstored : sp = .inbuf ∨ s.engine ≠ .busy) (hlo : sp.base ≤ addr.toNat)
        (hhi : addr.toNat < sp.base + windowSize s.params sp) :
        step s = .next (tick { s with
          inbox := rest
          outbox := .data ((s.byteAt addr.toNat).setWidth 32) :: s.outbox }) := by
      rw [hstep, busAccess_read_cell rfl (busTarget_of_window hp sp hlo hhi), readCell_of_stored hstored hlo]
      rfl
    rcases hwindow with ⟨hlo, hhi⟩ | ⟨hb, ⟨hlo, hhi⟩ | ⟨hlo, hhi⟩⟩
    · exact hread .inbuf (.inl rfl) hlo hhi
    · exact hread .outbuf (.inr hb) hlo hhi
    · exact hread .maskbuf (.inr hb) hlo hhi

/-! ### What a register write stores (10_state.md R22 to R31) -/

section
variable (s : State) (offset : Nat) (v : Word)

@[simp] theorem storeReg_cmdErr : (storeReg s offset v).cmdErr = s.cmdErr := by
  simp only [storeReg, apply_ite State.cmdErr, ite_self]
@[simp] theorem storeReg_termSeen : (storeReg s offset v).termSeen = s.termSeen := by
  simp only [storeReg, apply_ite State.termSeen, ite_self]
@[simp] theorem storeReg_inPos : (storeReg s offset v).inPos = s.inPos := by
  simp only [storeReg, apply_ite State.inPos, ite_self]
@[simp] theorem storeReg_pixCnt : (storeReg s offset v).pixCnt = s.pixCnt := by
  simp only [storeReg, apply_ite State.pixCnt, ite_self]
@[simp] theorem storeReg_lzw : (storeReg s offset v).lzw = s.lzw := by
  simp only [storeReg, apply_ite State.lzw, ite_self]
@[simp] theorem storeReg_png : (storeReg s offset v).png = s.png := by
  simp only [storeReg, apply_ite State.png, ite_self]
@[simp] theorem storeReg_epoch : (storeReg s offset v).epoch = s.epoch := by
  simp only [storeReg, apply_ite State.epoch, ite_self]
@[simp] theorem storeReg_free : (storeReg s offset v).free = s.free := by
  simp only [storeReg, apply_ite State.free, ite_self]
@[simp] theorem storeReg_inbox : (storeReg s offset v).inbox = s.inbox := by
  simp only [storeReg, apply_ite State.inbox, ite_self]
@[simp] theorem storeReg_outbox : (storeReg s offset v).outbox = s.outbox := by
  simp only [storeReg, apply_ite State.outbox, ite_self]
@[simp] theorem storeReg_hostNext : (storeReg s offset v).hostNext = s.hostNext := by
  simp only [storeReg, apply_ite State.hostNext, ite_self]

end

section
variable {s : State} {offset : Nat} {v : Word}

theorem storeReg_irqEn_of_ne (h : offset ≠ 0x08) : (storeReg s offset v).irqEn = s.irqEn := by
  simp only [storeReg, apply_ite State.irqEn, ite_self, if_neg h]
theorem storeReg_width_of_ne (h : offset ≠ 0x0C) : (storeReg s offset v).width = s.width := by
  simp only [storeReg, apply_ite State.width, ite_self, if_neg h]
theorem storeReg_height_of_ne (h : offset ≠ 0x10) : (storeReg s offset v).height = s.height := by
  simp only [storeReg, apply_ite State.height, ite_self, if_neg h]
theorem storeReg_inFmt_of_ne (h : offset ≠ 0x14) : (storeReg s offset v).inFmt = s.inFmt := by
  simp only [storeReg, apply_ite State.inFmt, ite_self, if_neg h]
theorem storeReg_outFmt_of_ne (h : offset ≠ 0x18) : (storeReg s offset v).outFmt = s.outFmt := by
  simp only [storeReg, apply_ite State.outFmt, ite_self, if_neg h]
theorem storeReg_inLen_of_ne (h : offset ≠ 0x20) : (storeReg s offset v).inLen = s.inLen := by
  simp only [storeReg, apply_ite State.inLen, ite_self, if_neg h]
theorem storeReg_pxX_of_ne (h : offset ≠ 0x2C) : (storeReg s offset v).pxX = s.pxX := by
  simp only [storeReg, apply_ite State.pxX, ite_self, if_neg h]
theorem storeReg_pxY_of_ne (h : offset ≠ 0x30) : (storeReg s offset v).pxY = s.pxY := by
  simp only [storeReg, apply_ite State.pxY, ite_self, if_neg h]
theorem storeReg_pxC_of_ne (h : offset ≠ 0x34) : (storeReg s offset v).pxC = s.pxC := by
  simp only [storeReg, apply_ite State.pxC, ite_self, if_neg h]
theorem storeReg_pxV_of_ne (h : offset ≠ 0x38) : (storeReg s offset v).pxV = s.pxV := by
  simp only [storeReg, apply_ite State.pxV, ite_self, if_neg h]

/-- STATUS shows one read-write register: IRQ_EN, in its interrupt bit (10_state.md R24, R25). -/
theorem storeReg_status_of_ne (h : offset ≠ 0x08) : (storeReg s offset v).status = s.status := by
  simp [State.status, State.irq, storeReg_irqEn_of_ne h]

/-- STRIDE is computed from WIDTH and OUT_FMT (10_state.md R32). -/
theorem storeReg_strideReg_of_ne (hw : offset ≠ 0x0C) (ho : offset ≠ 0x18) :
    (storeReg s offset v).strideReg = s.strideReg := by
  simp only [State.strideReg, State.stride, storeReg_width_of_ne hw, storeReg_outFmt_of_ne ho]

/-- A write changes no other register's value, but for what is computed from the one written (10_state.md R22). -/
theorem readReg_storeReg_of_ne {other : Nat} (hne : other ≠ offset)
    (hstride : other = 0x1C → offset ≠ 0x0C ∧ offset ≠ 0x18) (hstatus : other = 0x04 → offset ≠ 0x08) :
    readReg (storeReg s offset v) other = readReg s other := by
  unfold readReg
  refine ite_congr rfl (fun h => storeReg_status_of_ne (hstatus h)) fun _ => ?_
  refine ite_congr rfl (fun h => by rw [storeReg_irqEn_of_ne (h ▸ hne.symm)]) fun _ => ?_
  refine ite_congr rfl (fun h => storeReg_width_of_ne (h ▸ hne.symm)) fun _ => ?_
  refine ite_congr rfl (fun h => storeReg_height_of_ne (h ▸ hne.symm)) fun _ => ?_
  refine ite_congr rfl (fun h => by rw [storeReg_inFmt_of_ne (h ▸ hne.symm)]) fun _ => ?_
  refine ite_congr rfl (fun h => by rw [storeReg_outFmt_of_ne (h ▸ hne.symm)]) fun _ => ?_
  refine ite_congr rfl (fun h => storeReg_strideReg_of_ne (hstride h).1 (hstride h).2) fun _ => ?_
  refine ite_congr rfl (fun h => storeReg_inLen_of_ne (h ▸ hne.symm)) fun _ => ?_
  refine ite_congr rfl (fun _ => storeReg_inPos ..) fun _ => ?_
  refine ite_congr rfl (fun _ => storeReg_pixCnt ..) fun _ => ?_
  refine ite_congr rfl (fun h => storeReg_pxX_of_ne (h ▸ hne.symm)) fun _ => ?_
  refine ite_congr rfl (fun h => storeReg_pxY_of_ne (h ▸ hne.symm)) fun _ => ?_
  refine ite_congr rfl (fun h => storeReg_pxC_of_ne (h ▸ hne.symm)) fun _ => ?_
  refine ite_congr rfl (fun h => storeReg_pxV_of_ne (h ▸ hne.symm)) fun _ => ?_
  refine ite_congr rfl (fun _ => ?_) fun _ => rfl
  exact ite_congr (by rw [State.isBusy, storeReg_engine]; rfl) (fun _ => by rw [storeReg_free])
    fun _ => by rw [State.lzwStat, storeReg_lzw]; rfl

end

/-- One bit in the middle of a sum of fields changes no other bit. -/
theorem testBit_of_field_ne {lo k j : Nat} (hlo : lo < 2 ^ k) (hj : j ≠ k) (b c : Bool) (hi : Nat) :
    (lo + b.toNat * 2 ^ k + hi * 2 ^ (k + 1)).testBit j = (lo + c.toNat * 2 ^ k + hi * 2 ^ (k + 1)).testBit j := by
  have hfields (d : Bool) : lo + d.toNat * 2 ^ k + hi * 2 ^ (k + 1) = 2 ^ k * (2 ^ 1 * hi + d.toNat) + lo := by ring
  rw [hfields, hfields, Nat.testBit_two_pow_mul_add _ hlo, Nat.testBit_two_pow_mul_add _ hlo]
  split
  · rfl
  · rw [Nat.testBit_two_pow_mul_add _ b.toNat_lt, Nat.testBit_two_pow_mul_add _ c.toNat_lt, if_neg (by omega),
      if_neg (by omega)]

/-- A register write changes no bit of STATUS but the interrupt bit (10_state.md R24, R25). -/
theorem storeReg_status_getLsbD (s : State) (offset : Nat) (v : Word) {j : Nat} (hj : j ≠ 12) :
    (storeReg s offset v).status.getLsbD j = s.status.getLsbD j := by
  have he := s.engine.value_lt
  have hc := s.cmdErr.toNat_lt
  have ht := s.termSeen.toNat_lt
  have hf := s.faultCode.value_lt
  have hr := s.endReason.value_lt
  simp only [State.status, storeReg_engine, storeReg_cmdErr, storeReg_termSeen, storeReg_faultCode, storeReg_endReason,
    storeReg_unit, BitVec.getLsbD_ofNat]
  rw [testBit_of_field_ne (by omega) hj (storeReg s offset v).irq s.irq]

/-- The read-write registers, each with the bits that it stores (10_state.md R22, R25 to R31). -/
def storedBits : List (Nat × Word) :=
  [(0x08, 1), (0x0C, 0xFFFFFFFF), (0x10, 0xFFFFFFFF), (0x14, 0x0001071F), (0x18, 0x0001071F), (0x20, 0xFFFFFFFF),
    (0x2C, 0xFFFFFFFF), (0x30, 0xFFFFFFFF), (0x34, 0xFFFFFFFF), (0x38, 0xFFFFFFFF)]

/-- A register of one bit reads the lowest bit written. -/
theorem ofNat_toNat_getLsbD_zero (v : Word) : BitVec.ofNat 32 (v.getLsbD 0).toNat = v &&& 1 := by
  apply BitVec.eq_of_toNat_eq
  rw [BitVec.toNat_and, BitVec.toNat_ofNat, BitVec.getLsbD, Nat.testBit_zero]
  simp only [BitVec.ofNat_eq_ofNat, BitVec.toNat_ofNat, Nat.reducePow, Nat.one_mod, Nat.and_one_is_mod]
  rcases Nat.mod_two_eq_zero_or_one v.toNat with h | h <;> simp [h]

/-- A read-write register reads back what was written, at its stored bits. -/
theorem readReg_storeReg_same (s : State) (v : Word) :
    ∀ e ∈ storedBits, readReg (storeReg s e.1 v) e.1 = v &&& e.2 := by
  have hall : v = v &&& 0xFFFFFFFF := BitVec.and_allOnes.symm
  obtain ⟨hin, hout⟩ := formatRegistersKeepTheirFields s v
  simp only [storedBits, List.forall_mem_cons]
  exact ⟨ofNat_toNat_getLsbD_zero v, hall, hall, hin, hout, hall, hall, hall, hall, hall, List.forall_mem_nil _⟩

/-- A write of a read-only register is ignored (10_state.md R22). -/
theorem storeReg_of_readOnly (s : State) (v : Word) {offset : Nat} (h : offset ∈ [0x04, 0x1C, 0x24, 0x28, 0x3C]) :
    storeReg s offset v = s := by
  simp only [List.mem_cons, List.not_mem_nil, or_false] at h
  rcases h with rfl | rfl | rfl | rfl | rfl <;> rfl

/-! ### Writes (20_memory.md R66) -/

theorem heldWhileBusy_iff (offset : Nat) :
    heldWhileBusy offset = true ↔ offset ∈ [0x0C, 0x10, 0x14, 0x18, 0x20, 0x2C, 0x30, 0x34, 0x38] := by
  simp [heldWhileBusy, or_assoc]

theorem writeReg_of_held {s : State} (hb : s.engine = .busy) {offset : Nat} (h : heldWhileBusy offset = true)
    (v : Word) : writeReg s offset v = refuse s :=
  if_pos (by rw [(isBusy_iff s).2 hb, h]; rfl)

theorem writeReg_of_not_busy {s : State} (hb : s.engine ≠ .busy) (offset : Nat) (v : Word) :
    writeReg s offset v = storeReg s offset v :=
  if_neg (by simp [(isBusy_false_iff s).2 hb])

theorem writeReg_of_not_held (s : State) {offset : Nat} (h : heldWhileBusy offset = false) (v : Word) :
    writeReg s offset v = storeReg s offset v :=
  if_neg (by simp [h])

theorem writeCell_of_busy {s : State} (hb : s.engine = .busy) (sp : Space) (i : Nat) (b : Byte) :
    writeCell s sp i b = refuse s :=
  if_pos ((isBusy_iff s).2 hb)

theorem writeCell_of_not_busy {s : State} (hb : s.engine ≠ .busy) (sp : Space) (i : Nat) (b : Byte) :
    writeCell s sp i b = s.poke sp i [b] :=
  if_neg (by simp [(isBusy_false_iff s).2 hb])

theorem writeReg_outbox (s : State) (offset : Nat) (v : Word) : (writeReg s offset v).outbox = s.outbox := by
  unfold writeReg
  split
  · rfl
  · exact storeReg_outbox ..

/-- The host's step when it writes a register other than CMD. -/
theorem step_of_write_reg {s : State} {addr data : Word} {rest : List HostEvent} (hm : s.hostMoves = true)
    (hi : s.inbox = .bus ⟨true, 32, addr, data⟩ :: rest)
    (haddr : addr.toNat ≠ 0 ∧ addr.toNat % 4 = 0 ∧ addr.toNat ≤ 0x3C) :
    step s = .next (tick { writeReg s addr.toNat data with inbox := rest, outbox := .ok :: s.outbox }) := by
  obtain ⟨hcmd, halign, hle⟩ := haddr
  rw [step_of_access hm hi fun h => hcmd h.2.2, busAccess_write_reg rfl (busTarget_of_reg _ halign hle),
    ← writeReg_outbox s addr.toNat data]
  rfl

/-- The host's step when it writes a byte of a window. -/
theorem step_of_write_cell {s : State} {addr data : Word} {rest : List HostEvent} (hm : s.hostMoves = true)
    (hi : s.inbox = .bus ⟨true, 8, addr, data⟩ :: rest) (hp : s.params.legal = true) {sp : Space}
    (hlo : sp.base ≤ addr.toNat) (hhi : addr.toNat < sp.base + windowSize s.params sp) :
    step s = .next (tick
      ((respond .ok (writeCell s sp (addr.toNat - sp.base) (data.setWidth 8))).withInbox rest)) := by
  rw [step_of_access hm hi (by simp), busAccess_write_cell rfl (busTarget_of_window hp sp hlo hhi)]

/-- A byte within the size of a window, as 20_memory.md R62 lists the windows. -/
theorem exists_window {p : Params} {addr : Nat}
    (h : (0x10000000 ≤ addr ∧ addr < 0x10000000 + p.inbufBytes) ∨
      (0x20000000 ≤ addr ∧ addr < 0x20000000 + p.outbufBytes) ∨
      (0x30000000 ≤ addr ∧ addr < 0x30000000 + p.maskbufBytes)) :
    ∃ sp : Space, sp.base ≤ addr ∧ addr < sp.base + windowSize p sp := by
  rcases h with h | h | h
  · exact ⟨.inbuf, h⟩
  · exact ⟨.outbuf, h⟩
  · exact ⟨.maskbuf, h⟩

/-- Settles O57: a running unit holds its registers and the buffers, and IRQ_EN is not among them. -/
theorem busyWritesAreDropped : Obligations.BusyWritesAreDropped := by
  intro s bits addr data rest hb hm hi hp
  refine ⟨?held, ?irqEn⟩
  case held =>
    rintro (⟨rfl, hheld⟩ | ⟨rfl, hwindow⟩)
    · have haddr : ∀ a ∈ [0x0C, 0x10, 0x14, 0x18, 0x20, 0x2C, 0x30, 0x34, 0x38], a ≠ 0 ∧ a % 4 = 0 ∧ a ≤ 0x3C := by
        decide
      rw [step_of_write_reg hm hi (haddr _ hheld), writeReg_of_held hb ((heldWhileBusy_iff _).2 hheld)]
      rfl
    · obtain ⟨sp, hlo, hhi⟩ := exists_window hwindow
      rw [step_of_write_cell hm hi hp hlo hhi, writeCell_of_busy hb]
      rfl
  case irqEn =>
    rintro ⟨rfl, haddr⟩
    rw [step_of_write_reg hm hi (by rw [haddr]; decide), haddr, writeReg_of_not_held _ (by decide)]
    rfl

/-- Settles O55: outside BUSY a register write is the store alone, and a byte write the store of one byte. -/
theorem writesTakeEffect : Obligations.WritesTakeEffect := by
  intro s bits addr data rest hb hi hp
  have hm : s.hostMoves = true := (hostMoves_iff s).2 ⟨by simp [hi], .inl hb⟩
  refine ⟨?stored, ?readOnly, ?byte⟩
  case stored =>
    rintro mask rfl hmem
    have haddr : ∀ e ∈ storedBits, e.1 ≠ 0 ∧ e.1 % 4 = 0 ∧ e.1 ≤ 0x3C := by decide
    refine ⟨storeReg s addr.toNat data, ?_, readReg_storeReg_same s data _ hmem,
      fun k _ hne hstride hstatus => readReg_storeReg_of_ne hne hstride hstatus,
      fun j hj => storeReg_status_getLsbD s _ data hj, storeReg_mem .., storeReg_lzw .., storeReg_png ..,
      storeReg_free .., storeReg_params .., storeReg_epoch .., storeReg_inbox .., storeReg_outbox ..,
      storeReg_hostNext ..⟩
    rw [step_of_write_reg hm hi (haddr _ hmem), writeReg_of_not_busy hb]
  case readOnly =>
    rintro rfl hmem
    have haddr : ∀ a ∈ [0x04, 0x1C, 0x24, 0x28, 0x3C], a ≠ 0 ∧ a % 4 = 0 ∧ a ≤ 0x3C := by decide
    rw [step_of_write_reg hm hi (haddr _ hmem), writeReg_of_not_busy hb, storeReg_of_readOnly s data hmem]
  case byte =>
    rintro rfl hwindow
    obtain ⟨sp, hlo, hhi⟩ := exists_window hwindow
    have hindex : sp.base + (addr.toNat - sp.base) = addr.toNat := Nat.add_sub_cancel' hlo
    refine ⟨s.poke sp (addr.toNat - sp.base) [data.setWidth 8], ?_, rfl, ?_, fun a hne => ?_⟩
    · rw [step_of_write_cell hm hi hp hlo hhi, writeCell_of_not_busy hb]
      rfl
    · rw [State.byteAt_poke, hindex]
      simp
    · refine State.byteAt_poke_outside s sp _ _ a fun hin => hne ?_
      rw [hindex, List.length_singleton] at hin
      omega

end Sys2Proof.Machine

/-! ## The encoding (30_encoding.md) -/

/-! ### Words by their highest set bit -/

namespace Sys2Proof

/-- A word is below a power of two exactly when its bits from there up are clear. -/
theorem toNat_lt_two_pow_iff {w n : Nat} (x : BitVec w) : x.toNat < 2 ^ n ↔ ∀ k, n ≤ k → x.getLsbD k = false := by
  constructor
  · intro h k hk
    rw [← BitVec.testBit_toNat]
    exact Nat.testBit_lt_two_pow (h.trans_le (Nat.pow_le_pow_right (by decide) hk))
  · intro h
    exact Nat.lt_pow_two_of_testBit _ fun k hk => (BitVec.testBit_toNat x).trans (h k hk)

/-- The word with highest set bit `n` and the operand `low` below it. The rows of the tables that have an operand are such
words (30_encoding.md R82, R88, R90), all but FILTER.RESERVED_06. -/
def withTopBit (w : Nat) {n : Nat} (low : BitVec n) : BitVec w := BitVec.twoPow w n ||| low.setWidth w

section
variable {w n k : Nat}

theorem getLsbD_withTopBit_self (low : BitVec n) (h : n < w) : (withTopBit w low).getLsbD n = true := by
  simp [withTopBit, h]

theorem getLsbD_withTopBit_of_lt (low : BitVec n) (h : n < k) : (withTopBit w low).getLsbD k = false := by
  simp [withTopBit, BitVec.getLsbD_twoPow, BitVec.getLsbD_of_ge low k h.le, h.ne]

theorem setWidth_withTopBit (low : BitVec n) (h : n ≤ w) : (withTopBit w low).setWidth n = low := by
  ext i hi
  simp [withTopBit, hi, hi.ne, hi.trans_le h]

variable {x : BitVec w}

theorem toNat_lt_of_getLsbD_eq_false (hlt : x.toNat < 2 ^ (n + 1)) (hn : x.getLsbD n = false) : x.toNat < 2 ^ n := by
  rw [toNat_lt_two_pow_iff] at hlt ⊢
  intro k hk
  rcases hk.eq_or_lt with rfl | hk
  · exact hn
  · exact hlt k hk

/-- A word is the word of its highest set bit and of the bits below. -/
theorem withTopBit_setWidth (hlt : x.toNat < 2 ^ (n + 1)) (hn : x.getLsbD n = true) : withTopBit w (x.setWidth n) = x := by
  rw [toNat_lt_two_pow_iff] at hlt
  apply BitVec.eq_of_getLsbD_eq
  intro i hi
  rcases lt_trichotomy i n with h | rfl | h
  · simp [withTopBit, h, hi, h.ne]
  · rw [getLsbD_withTopBit_self _ hi, hn]
  · rw [getLsbD_withTopBit_of_lt _ h, hlt i h]

end

/-! ### Decoding an encoded instruction -/

/-- In a row with an operand the decoder passes every rung above the row's highest set bit and stops there, with the bits
below as the operand. An LZW code is of the class of its own line of 30_encoding.md R87, since no line before it applies. -/
theorem decode_encode (c : LzwCtx) (i : Instr) (h : i.wellFormed c = true) : decode c (encode i) = i := by
  cases i with
  | nop | reset | abort | pbClear | pbSet | pbGet | lzwStart | pngStart => rfl
  | cmdReservedOp low | cmdReservedRsvdB4 low | cmdReservedRsvdB5 low | cmdReservedRsvdB6 low
  | cmdReservedRsvdB7 low | cmdReservedRsvdB8 low | cmdReservedRsvdB9 low | cmdReservedRsvdB10 low
  | cmdReservedRsvdB11 low | cmdReservedRsvdB12 low | cmdReservedRsvdB13 low | cmdReservedRsvdB14 low
  | cmdReservedRsvdB15 low | cmdReservedRsvdB16 low | cmdReservedRsvdB17 low | cmdReservedRsvdB18 low
  | cmdReservedRsvdB19 low | cmdReservedRsvdB20 low | cmdReservedRsvdB21 low | cmdReservedRsvdB22 low
  | cmdReservedRsvdB23 low | cmdReservedRsvdB24 low | cmdReservedRsvdB25 low | cmdReservedRsvdB26 low
  | cmdReservedRsvdB27 low | cmdReservedRsvdB28 low | cmdReservedRsvdB29 low | cmdReservedRsvdB30 low
  | cmdReservedRsvdB31 low =>
    change decodeCmd (withTopBit 32 low) = _
    simp (disch := decide) only [decodeCmd, getLsbD_withTopBit_of_lt, getLsbD_withTopBit_self, setWidth_withTopBit,
      Bool.false_eq_true, ↓reduceIte]
  | lzwClear code | lzwEnd code | lzwBad code | lzwFirst code | lzwKwkwk code | lzwLit code | lzwDict code =>
    simp only [Instr.wellFormed, Bool.and_eq_true, Bool.not_eq_true'] at h
    simp only [decode, encode, decodeCode, h, Bool.false_eq_true, ↓reduceIte]
  | sbTerm | sbData01 => rfl
  | sbData02 low | sbData04 low | sbData08 low | sbData10 low | sbData20 low | sbData40 low | sbData80 low =>
    change decodeLen (withTopBit 8 low) = _
    simp (disch := decide) only [decodeLen, getLsbD_withTopBit_of_lt, getLsbD_withTopBit_self, setWidth_withTopBit,
      Bool.false_eq_true, ↓reduceIte]
  | filterNone | filterSub | filterUp | filterAvg | filterPaeth | filterReserved05 => rfl
  | filterReserved06 low =>
    have hwords : ∀ low : BitVec 1, decodeFilter (0x06#8 ||| low.setWidth 8) = .filterReserved06 low := by decide
    exact hwords low
  | filterReserved08 low | filterReserved10 low | filterReserved20 low | filterReserved40 low
  | filterReserved80 low =>
    change decodeFilter (withTopBit 8 low) = _
    simp (disch := decide) only [decodeFilter, getLsbD_withTopBit_of_lt, getLsbD_withTopBit_self, setWidth_withTopBit,
      Bool.false_eq_true, ↓reduceIte]

/-- Settles O10. -/
theorem decodeOfEncode : Obligations.DecodeOfEncode := decode_encode

/-! ### Encoding a decoded word -/

/-- `i` is a well-formed instruction of the context and `e` is its word. -/
def Instr.StandsFor (c : LzwCtx) (e : Encoding) (i : Instr) : Prop := encode i = e ∧ i.wellFormed c = true

section
variable {w n : Nat} {c : LzwCtx} {mk : BitVec w → Encoding} {x : BitVec w} {i j : Instr}

/-- A rung of a decoder that tests bit `n`, once the bits above it are known to be clear. -/
theorem standsFor_ite_getLsbD (hlt : x.toNat < 2 ^ (n + 1)) (hi : i.StandsFor c (mk (withTopBit w (x.setWidth n))))
    (hj : x.toNat < 2 ^ n → j.StandsFor c (mk x)) : (if x.getLsbD n then i else j).StandsFor c (mk x) := by
  split
  · next hn => rwa [withTopBit_setWidth hlt hn] at hi
  · next hn => exact hj (toNat_lt_of_getLsbD_eq_false hlt (Bool.eq_false_iff.2 hn))

/-- A rung of a decoder that tests for one word. -/
theorem standsFor_ite_beq {v : BitVec w} (hi : i.StandsFor c (mk v)) (hj : x ≠ v → j.StandsFor c (mk x)) :
    (if x == v then i else j).StandsFor c (mk x) := by
  split
  · next hv => rwa [beq_iff_eq.1 hv]
  · next hv => exact hj fun h => hv (beq_iff_eq.2 h)

end

theorem decodeCmd_standsFor (c : LzwCtx) (w : Word) : (decodeCmd w).StandsFor c (.cmd w) := by
  have hlt : w.toNat < 2 ^ 32 := w.isLt
  unfold decodeCmd
  iterate 29 refine standsFor_ite_getLsbD (mk := .cmd) ‹_› ⟨rfl, rfl⟩ fun _ => ?_
  iterate 7 refine standsFor_ite_beq (mk := .cmd) ⟨rfl, rfl⟩ fun _ => ?_
  obtain rfl : w = 7 := by bv_omega
  exact ⟨rfl, rfl⟩

theorem decodeLen_standsFor (c : LzwCtx) (b : Byte) : (decodeLen b).StandsFor c (.len b) := by
  have hlt : b.toNat < 2 ^ 8 := b.isLt
  unfold decodeLen
  iterate 7 refine standsFor_ite_getLsbD (mk := .len) ‹_› ⟨rfl, rfl⟩ fun _ => ?_
  obtain rfl | rfl : b = 0 ∨ b = 1 := by bv_omega
  · exact ⟨rfl, rfl⟩
  · exact ⟨rfl, rfl⟩

theorem decodeFilter_standsFor (c : LzwCtx) (b : Byte) : (decodeFilter b).StandsFor c (.filter b) := by
  have hlt : b.toNat < 2 ^ 8 := b.isLt
  unfold decodeFilter
  iterate 5 refine standsFor_ite_getLsbD (mk := .filter) ‹_› ⟨rfl, rfl⟩ fun _ => ?_
  iterate 6 refine standsFor_ite_beq (mk := .filter) ⟨rfl, rfl⟩ fun _ => ?_
  obtain rfl | rfl : b = 6 ∨ b = 7 := by bv_omega
  · exact ⟨rfl, rfl⟩
  · exact ⟨rfl, rfl⟩

/-- The lines of 30_encoding.md R87 leave no code without a class: one that no other line takes is of the last. -/
theorem LzwCtx.isDict_of_no_other {c : LzwCtx} {code : BitVec 12} (hclear : ¬ c.isClear code = true)
    (hend : ¬ c.isEnd code = true) (hbad : ¬ c.isBad code = true) (hkwkwk : ¬ c.isKwkwk code = true)
    (hlit : ¬ c.isLit code = true) : c.isDict code = true := by
  rw [isClear_iff] at hclear
  rw [isEnd_iff] at hend
  rw [isBad_iff] at hbad
  simp only [isKwkwk, isLit, isDict, beq_iff_eq, Bool.and_eq_true, decide_eq_true_eq] at hkwkwk hlit ⊢
  omega

theorem decodeCode_standsFor {c : LzwCtx} {code : BitVec 12} (hfits : c.fits code = true) :
    (decodeCode c code).StandsFor c (.code code) := by
  unfold decodeCode
  split_ifs with hclear hend hbad hfirst hkwkwk hlit
  case neg =>
    have hdict := LzwCtx.isDict_of_no_other hclear hend hbad hkwkwk hlit
    exact ⟨rfl, by simp [Instr.wellFormed, *]⟩
  all_goals exact ⟨rfl, by simp [Instr.wellFormed, *]⟩

/-- Settles O11: each format's decoder answers an instruction that stands for the word. -/
theorem encodeOfDecode : Obligations.EncodeOfDecode := by
  intro c e hfits
  cases e with
  | cmd w => exact decodeCmd_standsFor c w
  | code code => exact decodeCode_standsFor (hfits code rfl)
  | len b => exact decodeLen_standsFor c b
  | filter b => exact decodeFilter_standsFor c b

/-- Settles O12, by running the decoders on the words. -/
theorem tableWordsDecode : Obligations.TableWordsDecode := by
  unfold Obligations.TableWordsDecode
  decide

/-! ### The accumulator of the code stream (30_encoding.md R84, R85) -/

/-- Adding a word above the `k` bits that another holds puts its bits after them. -/
theorem getLsbD_add_shiftLeft {w k : Nat} {x : BitVec w} (y : BitVec w) (hx : x.toNat < 2 ^ k) (j : Nat) :
    (x + y <<< k).getLsbD j = if j < k then x.getLsbD j else decide (j < w) && y.getLsbD (j - k) := by
  rw [toNat_lt_two_pow_iff] at hx
  have hdisjoint : x &&& y <<< k = 0#w := by
    apply BitVec.eq_of_getLsbD_eq
    intro i _
    rcases Nat.lt_or_ge i k with hik | hik
    · simp [hik]
    · simp [hx i hik]
  rw [BitVec.add_eq_or_of_and_eq_zero _ _ hdisjoint, BitVec.getLsbD_or, BitVec.getLsbD_shiftLeft]
  split
  · next hj => simp [hj]
  · next hj => simp [hj, hx j (Nat.le_of_not_lt hj)]

end Sys2Proof

namespace Sys2Proof.Machine

theorem Lzw.Good.dataSize_ne_zero {l : Lzw} (h : l.Good) : l.dataSize ≠ 0 := by
  have hlo := h.dataSize.1
  intro h0
  simp [h0] at hlo

/-- With fewer bits held than a code has, at most 11, the sum does not leave the 5 bits of the counter. -/
theorem Lzw.Good.loadByte_bits {l : Lzw} (h : l.Good) (b : Byte) (hb : l.bits.toNat < l.codeSize.toNat) :
    (l.loadByte b).bits.toNat = l.bits.toNat + 8 := by
  have hcs := h.codeSize.2
  simp only [Lzw.loadByte, BitVec.toNat_add, BitVec.ofNat_eq_ofNat, BitVec.toNat_ofNat]
  omega

/-- With at most 11 bits held, no bit of the byte is lost above the accumulator's 19. -/
theorem Lzw.Good.loadByte_datum {l : Lzw} (h : l.Good) (b : Byte) (hb : l.bits.toNat < l.codeSize.toNat) (j : Nat) :
    (l.loadByte b).datum.getLsbD j =
      if j < l.bits.toNat then l.datum.getLsbD j else b.getLsbD (j - l.bits.toNat) := by
  have hcs := h.codeSize.2
  rw [Lzw.loadByte, getLsbD_add_shiftLeft _ h.datum, BitVec.getLsbD_setWidth]
  congr 1
  rcases Nat.lt_or_ge j 19 with hj | hj
  · simp [hj, (Nat.sub_le j l.bits.toNat).trans_lt hj]
  · simp [BitVec.getLsbD_of_ge b (j - l.bits.toNat) (by omega)]

theorem Lzw.nextCode_getLsbD {l : Lzw} (hcs : l.codeSize.toNat ≤ 12) (j : Nat) :
    l.nextCode.getLsbD j = (decide (j < l.codeSize.toNat) && l.datum.getLsbD j) := by
  rw [Lzw.nextCode, BitVec.getLsbD_ofNat, Nat.testBit_mod_two_pow, BitVec.testBit_toNat]
  rcases Nat.lt_or_ge j l.codeSize.toNat with hj | hj
  · simp [hj, hj.trans_le hcs]
  · simp [Nat.not_lt.2 hj]

theorem Lzw.dropCode_bits {l : Lzw} (hb : l.codeSize.toNat ≤ l.bits.toNat) :
    l.dropCode.bits.toNat = l.bits.toNat - l.codeSize.toNat := by
  simp only [Lzw.dropCode, BitVec.toNat_sub, BitVec.toNat_setWidth]
  omega

theorem Lzw.dropCode_datum (l : Lzw) (j : Nat) : l.dropCode.datum.getLsbD j = l.datum.getLsbD (j + l.codeSize.toNat) := by
  rw [Lzw.dropCode, BitVec.getLsbD_ushiftRight, Nat.add_comm]

/-- The LZW loop with too few bits for a code loads the next byte of the open block (42_lzw.md R165, R167). -/
theorem fetchLzw_of_openBlock {s : State} (hd : s.lzw.dataSize ≠ 0)
    (hp : s.pixCnt.toNat < s.width.toNat * s.height.toNat) (ht : s.lzw.top = 0)
    (hb : s.lzw.bits.toNat < s.lzw.codeSize.toNat) (hc : s.lzw.count ≠ 0) (hi : s.inPos.toNat < s.inLen.toNat) :
    fetchLzw s = .work { s with
      inPos := s.inPos + 1
      lzw := { s.lzw.loadByte (s.byteAt (0x10000000 + s.inPos.toNat)) with count := s.lzw.count - 1 } } := by
  rw [fetchLzw_of_needsByte hd hp ht hb, readByte?_of_lt hi]
  exact if_neg hc

/-- Settles O38, from what the accumulator's operations do to each bit and from the loading pass of the loop. -/
theorem accumulatorHoldsTheStream : Obligations.AccumulatorHoldsTheStream := by
  constructor
  · intro l b h
    exact ⟨fun hb => ⟨h.loadByte_bits b hb, h.loadByte_datum b hb⟩,
      fun hb => ⟨Lzw.nextCode_getLsbD h.codeSize.2, Lzw.dropCode_bits hb, l.dropCode_datum⟩⟩
  · intro s h hm hbusy hu hp ht hb hc hi
    have hfetch := (fetch_of_lzw hm hbusy hu).trans (fetchLzw_of_openBlock h.dataSize_ne_zero hp ht hb hc hi)
    have hcount : (s.lzw.count - 1).toNat + 1 = s.lzw.count.toNat := by bv_omega
    have hbits := h.loadByte_bits (s.byteAt (0x10000000 + s.inPos.toNat)) hb
    exact ⟨_, step_of_work hfetch, rfl, hcount, hbits, h.loadByte_datum _ hb⟩

end Sys2Proof.Machine

/-! ## Control commands (40_control.md) -/

namespace Sys2Proof.Machine

/-! ### NOP and the reserved words (40_control.md R115, R118) -/

/-- Settles O15. -/
theorem nopChangesNothing : Obligations.NopChangesNothing := fun _ => rfl

/-- Settles O16: each of the 29 rows has the one meaning `refuse`. -/
theorem reservedCommandsSetCmdErr : Obligations.ReservedCommandsSetCmdErr := by
  intro s
  and_intros
  all_goals exact fun _ => rfl

/-- A rung of a decoder that tests bit `n`, for a meaning that every row with an operand has. -/
theorem exec_ite_getLsbD {P : Result → Prop} {w n : Nat} {x : BitVec w} {i j : Instr} {s : State}
    (hlt : x.toNat < 2 ^ (n + 1)) (hi : P (exec i s)) (hj : x.toNat < 2 ^ n → P (exec j s)) :
    P (exec (if x.getLsbD n then i else j) s) := by
  split
  · exact hi
  · next hn => exact hj (toNat_lt_of_getLsbD_eq_false hlt (Bool.eq_false_iff.2 hn))

/-- Only the words 0 to 7 pass every rung of the reserved rows (30_encoding.md R81, R82). -/
theorem exec_decodeCmd_of_reserved {w : Word} (h : 8 ≤ w.toNat) (s : State) :
    exec (decodeCmd w) s = .next (refuse s) := by
  have hlt : w.toNat < 2 ^ 32 := w.isLt
  unfold decodeCmd
  iterate 29 refine exec_ite_getLsbD (P := (· = .next (refuse s))) ‹_› rfl fun _ => ?_
  omega

/-- Settles O13: a word with a reserved bit set, or with OP 8 to 15, is no word below 8. -/
theorem reservedWordsAreRefused : Obligations.ReservedWordsAreRefused := by
  intro c w s hreserved
  refine exec_decodeCmd_of_reserved ?_ s
  by_contra hlt
  rcases hreserved with hbits | hop
  · refine hbits (BitVec.eq_of_toNat_eq ?_)
    rw [BitVec.extractLsb'_toNat, Nat.shiftRight_eq_div_pow, Nat.div_eq_of_lt (by omega)]
    rfl
  · rw [BitVec.extractLsb'_toNat] at hop
    omega

/-! ### RESET and ABORT (40_control.md R116, R117) -/

theorem scrambleOutput_keepsUnused (s : State) : KeepsUnused s (scrambleOutput s) := byteAt_scrambleOutput s

/-- RESET resets the registers of a state that differs from `s` in the used output regions, and that only while BUSY. -/
theorem exists_exec_reset (s : State) :
    ∃ mem free, exec .reset s = .next (resetRegs { s with mem := mem, free := free }) ∧
      (s.engine ≠ .busy → mem = s.mem) ∧ KeepsUnused s { s with mem := mem, free := free } := by
  by_cases hb : s.engine = .busy
  · have hexec : exec .reset s = .next (resetRegs (scrambleOutput s)) := by
      simp [exec, execReset, (isBusy_iff s).2 hb]
    have hkeeps := scrambleOutput_keepsUnused s
    rw [scrambleOutput_eq] at hexec hkeeps
    exact ⟨_, _, hexec, absurd hb, hkeeps⟩
  · have hexec : exec .reset s = .next (resetRegs s) := by
      simp [exec, execReset, (isBusy_false_iff s).2 hb]
    exact ⟨s.mem, s.free, hexec, fun _ => rfl, .of_mem rfl rfl⟩

section
variable (s : State)

@[simp] theorem resetRegs_irq : (resetRegs s).irq = false := rfl

@[simp] theorem resetRegs_status : (resetRegs s).status = 0 := by
  simp [State.status, EngState.value, FaultCode.value, EndReason.value, UnitSel.value]

@[simp] theorem resetRegs_strideReg : (resetRegs s).strideReg = 0 := by
  simp [State.strideReg, State.stride, strideOf_eq]

@[simp] theorem resetRegs_lzwStat : (resetRegs s).lzwStat = 0 := by simp [State.lzwStat, unspecifiedLzw]

/-- Every register reads its reset value after a reset (70_reset_and_hazards.md R292): STATUS, the formats, STRIDE and
LZW_STAT are made of reset fields, the others are one. -/
theorem readReg_resetRegs {k : Nat} (hk : k < 16) : readReg (resetRegs s) (4 * k) = 0 := by
  have hlzwStat : readReg (resetRegs s) 0x3C = 0 := (readReg_lzwStat _ (by simp)).trans (resetRegs_lzwStat s)
  interval_cases k
  all_goals simp [InFmt.toWord, OutFmt.toWord, hlzwStat]

end

/-- Settles O17. -/
theorem resetCommandResets : Obligations.ResetCommandResets := by
  intro s
  obtain ⟨mem, free, hexec, hmem, hkeeps⟩ := exists_exec_reset s
  exact ⟨_, hexec, fun _ => readReg_resetRegs _, rfl, rfl, rfl, ⟨rfl, rfl, rfl, rfl, rfl⟩, hmem, hkeeps⟩

theorem exec_abort_of_not_running {s : State} (h : s.engine = .idle ∨ s.engine = .done) :
    exec .abort s = .next { s with engine := .idle, endReason := .noReason } := by
  rcases h with he | he
  all_goals simp [exec, execAbort, State.acceptsAbort, State.isBusy, he]

theorem exec_abort_of_busy {s : State} (h : s.engine = .busy) :
    exec .abort s = .next { scrambleCounters (scrambleOutput s) with engine := .idle } := by
  simp [exec, execAbort, State.acceptsAbort, State.isBusy, h]

/-- Settles O18: while BUSY the output is scrambled, which leaves the unused bytes, and then the counters are. -/
theorem abortStopsTheUnit : Obligations.AbortStopsTheUnit := by
  intro s
  refine ⟨exec_abort_of_not_running, fun hb => ⟨_, exec_abort_of_busy hb, ?_, ?_⟩⟩
  · rw [scrambleOutput_eq]
    rfl
  · exact scrambleOutput_keepsUnused s

/-! ### What leaves CMDERR alone -/

@[simp] theorem scrambleOutput_cmdErr (s : State) : (scrambleOutput s).cmdErr = s.cmdErr := by rw [scrambleOutput_eq]

@[simp] theorem scrambleCounters_cmdErr (s : State) : (scrambleCounters s).cmdErr = s.cmdErr := rfl

@[simp] theorem lzwHeader_cmdErr (s : State) : (lzwHeader s).cmdErr = s.cmdErr := by
  rcases lzwHeader_cases s with ⟨-, h⟩ | ⟨ds, -, -, ⟨-, h⟩ | ⟨-, -, h⟩⟩ <;> rw [h] <;> rfl

@[simp] theorem popPixel_cmdErr (s : State) : (popPixel s).cmdErr = s.cmdErr := by rw [popPixel_eq]

@[simp] theorem pngInit_cmdErr (s : State) : (pngInit s).cmdErr = s.cmdErr := by rw [pngInit_eq]

@[simp] theorem enterPass_cmdErr (pass : Nat) (s : State) : (enterPass pass s).cmdErr = s.cmdErr := by
  rcases enterPass_cases pass s with ⟨p, -, h⟩ | ⟨-, h⟩ <;> rw [h] <;> rfl

@[simp] theorem advanceRow_cmdErr (s : State) : (advanceRow s).cmdErr = s.cmdErr := by rw [advanceRow_eq]

@[simp] theorem placeRow_cmdErr (row : List Byte) (s : State) : (placeRow row s).cmdErr = s.cmdErr := by rw [placeRow_eq]

/-! ### The acceptance table (40_control.md R110, R111) -/

/-- A meaning completes without changing the CMDERR of `s`. -/
def CompletesUnflagged (s : State) (r : Result) : Prop := ∃ t, r = .next t ∧ t.cmdErr = s.cmdErr

theorem CompletesUnflagged.next {s t : State} (h : t.cmdErr = s.cmdErr) : CompletesUnflagged s (.next t) := ⟨t, rfl, h⟩

/-- In `s` the command `i` completes without changing CMDERR when `accepts` holds, and is refused otherwise. -/
structure AcceptedIf (accepts : Bool) (i : Instr) (s : State) : Prop where
  accepted : accepts = true → CompletesUnflagged s (exec i s)
  refused : accepts = false → exec i s = .next (refuse s)

/-- A command whose meaning begins with the test for acceptance. -/
theorem AcceptedIf.of_ite {accepts : Bool} {i : Instr} {s : State} {r : Result}
    (h : exec i s = if !accepts then .next (refuse s) else r) (hr : CompletesUnflagged s r) : AcceptedIf accepts i s where
  accepted ha := by rwa [h, ha]
  refused ha := by rw [h, ha]; rfl

section
variable (s : State)

theorem abort_accepted : AcceptedIf s.acceptsAbort .abort s := by
  refine .of_ite rfl ?_
  split
  · exact .next (by simp)
  · exact .next rfl

theorem pbClear_accepted : AcceptedIf s.acceptsWork .pbClear s := by
  refine .of_ite rfl ?_
  split_ifs
  all_goals exact .next rfl

theorem pbSet_accepted : AcceptedIf s.acceptsWork .pbSet s := by
  refine .of_ite rfl ?_
  split_ifs
  · exact .next rfl
  · exact .next rfl
  · exact .next (setPixel_cmdErr ..)

theorem pbGet_accepted : AcceptedIf s.acceptsWork .pbGet s := by
  refine .of_ite rfl ?_
  split_ifs
  all_goals exact .next rfl

theorem lzwStart_accepted : AcceptedIf s.acceptsWork .lzwStart s := by
  refine .of_ite rfl ?_
  split
  all_goals exact .next rfl

theorem pngStart_accepted : AcceptedIf s.acceptsWork .pngStart s := by
  refine .of_ite rfl ?_
  split
  · exact .next rfl
  · exact .next (by simp)

/-- The commands that start a unit or use the pixel buffer are accepted in the same states. -/
theorem work_accepted : ∀ i ∈ [Instr.pbClear, .pbSet, .pbGet, .lzwStart, .pngStart], AcceptedIf s.acceptsWork i s := by
  simp only [List.forall_mem_cons, List.not_mem_nil, false_implies, implies_true, and_true]
  exact ⟨pbClear_accepted s, pbSet_accepted s, pbGet_accepted s, lzwStart_accepted s, pngStart_accepted s⟩

end

theorem acceptsAbort_iff (s : State) : s.acceptsAbort = true ↔ s.engine ≠ .fault := by simp [State.acceptsAbort]

theorem acceptsWork_of_busy {s : State} (h : s.engine = .busy) : s.acceptsWork = false := by simp [State.acceptsWork, h]

theorem acceptsWork_of_fault {s : State} (h : s.engine = .fault) : s.acceptsWork = false := by simp [State.acceptsWork, h]

theorem acceptsAbort_of_fault {s : State} (h : s.engine = .fault) : s.acceptsAbort = false := by
  simp [State.acceptsAbort, h]

/-- Settles O19: the commands are accepted in the states of their row, and RESET clears CMDERR. -/
theorem acceptanceTable : Obligations.AcceptanceTable := by
  intro s
  refine ⟨?fault, ?busy, ?ready, ?abortBusy, ⟨s, rfl, rfl⟩, ⟨_, rfl, rfl⟩⟩
  case fault =>
    intro he
    exact List.forall_mem_cons.2 ⟨(abort_accepted s).refused (acceptsAbort_of_fault he),
      fun i hi => (work_accepted s i hi).refused (acceptsWork_of_fault he)⟩
  case busy => exact fun he i hi => (work_accepted s i hi).refused (acceptsWork_of_busy he)
  case ready =>
    intro he
    have hwork := (acceptsWork_iff s).2 he
    have habort := (acceptsAbort_iff s).2 (engine_of_acceptsWork hwork).2
    exact List.forall_mem_cons.2 ⟨(abort_accepted s).accepted habort, fun i hi => (work_accepted s i hi).accepted hwork⟩
  case abortBusy => exact fun he => (abort_accepted s).accepted ((acceptsAbort_iff s).2 (by simp [he]))

/-! ### CMDERR is sticky (40_control.md R112) -/

/-- CMDERR is set in the next state, where a meaning answers one. -/
def CmdErrStands : Result → Prop
  | .next t => t.cmdErr = true
  | .fault _ => True
  | .refused _ => True

theorem CompletesUnflagged.cmdErrStands {s : State} {r : Result} (hr : CompletesUnflagged s r) (h : s.cmdErr = true) :
    CmdErrStands r := by
  obtain ⟨t, rfl, ht⟩ := hr
  exact ht.trans h

/-- A command of the acceptance table leaves CMDERR or sets it. -/
theorem AcceptedIf.cmdErrStands {accepts : Bool} {i : Instr} {s : State} (ha : AcceptedIf accepts i s)
    (h : s.cmdErr = true) : CmdErrStands (exec i s) := by
  cases hacc : accepts with
  | true => exact (ha.accepted hacc).cmdErrStands h
  | false =>
    rw [ha.refused hacc]
    exact refuse_cmdErr s

section
variable {s : State} (h : s.cmdErr = true)
include h

/-- Of the command words only RESET, which is 1, can clear CMDERR. -/
theorem exec_decodeCmd_cmdErrStands {w : Word} (hw : w ≠ 1) : CmdErrStands (exec (decodeCmd w) s) := by
  unfold decodeCmd
  iterate 29 refine exec_ite (P := CmdErrStands) (refuse_cmdErr s) ?_
  refine exec_ite (P := CmdErrStands) h ?_
  rw [if_neg (by simpa using hw)]
  refine exec_ite ((abort_accepted s).cmdErrStands h) ?_
  refine exec_ite ((pbClear_accepted s).cmdErrStands h) ?_
  refine exec_ite ((pbSet_accepted s).cmdErrStands h) ?_
  refine exec_ite ((pbGet_accepted s).cmdErrStands h) ?_
  exact exec_ite ((lzwStart_accepted s).cmdErrStands h) ((pngStart_accepted s).cmdErrStands h)

theorem openSubBlock_cmdErrStands (len : Nat) : CmdErrStands (openSubBlock len s) := by
  unfold openSubBlock
  split
  all_goals exact h

theorem exec_decodeLen_cmdErrStands (b : Byte) : CmdErrStands (exec (decodeLen b) s) := by
  rcases exec_decodeLen_cases b s with heq | ⟨len, heq⟩ <;> rw [heq]
  · exact h
  · exact openSubBlock_cmdErrStands h len

theorem execLzwBad_cmdErrStands (code : BitVec 12) : CmdErrStands (execLzwBad code s) := by
  unfold execLzwBad
  split
  all_goals exact h

theorem execLzwFirst_cmdErrStands (code : BitVec 12) : CmdErrStands (execLzwFirst code s) := by
  unfold execLzwFirst
  split
  · trivial
  · exact h

theorem decodeStep_cmdErrStands (code : BitVec 12) : CmdErrStands (decodeStep code s) := by
  cases hr : decodeStep code s with
  | next t => rcases decodeStep_cases hr with ⟨_, rfl⟩ | ⟨_, _, _, -, -, -, -, rfl⟩ <;> exact h
  | fault f => trivial
  | refused r => trivial

theorem exec_decodeCode_cmdErrStands (c : LzwCtx) (code : BitVec 12) : CmdErrStands (exec (decodeCode c code) s) := by
  unfold decodeCode
  split_ifs
  · exact h
  · exact h
  · exact execLzwBad_cmdErrStands h code
  · exact execLzwFirst_cmdErrStands h code
  all_goals exact decodeStep_cmdErrStands h code

theorem filterRow_cmdErrStands (pred : Predictor) : CmdErrStands (filterRow pred s) := by
  unfold filterRow
  split
  · exact h
  · exact (advanceRow_cmdErr _).trans ((placeRow_cmdErr _ _).trans h)

theorem exec_decodeFilter_cmdErrStands (b : Byte) : CmdErrStands (exec (decodeFilter b) s) :=
  exec_decodeFilter_cases (P := CmdErrStands) (filterRow_cmdErrStands h) h b

/-- Of all encoded words only RESET's can clear CMDERR. -/
theorem exec_decode_cmdErrStands (c : LzwCtx) {e : Encoding} (he : e ≠ .cmd 1) : CmdErrStands (exec (decode c e) s) := by
  cases e with
  | cmd w => exact exec_decodeCmd_cmdErrStands h fun hw => he (congrArg Encoding.cmd hw)
  | code code => exact exec_decodeCode_cmdErrStands h c code
  | len b => exact exec_decodeLen_cmdErrStands h b
  | filter b => exact exec_decodeFilter_cmdErrStands h b

theorem busAccess_cmdErr (op : BusOp) : (busAccess op s).cmdErr = true := by
  obtain ⟨r, t, heq, ht⟩ := busAccess_cases op s
  rw [heq, respond_cmdErr]
  rcases ht with rfl | ⟨-, rfl⟩ | ⟨offset, -, rfl⟩ | ⟨-, sp, i, -, rfl⟩
  · exact h
  · exact refuse_cmdErr s
  · exact (storeReg_cmdErr ..).trans h
  · exact h

end

/-- What a step finds to do leaves CMDERR set, and a word that it reads is not RESET's. -/
def Fetched.CmdErrStands : Fetched → Prop
  | .word e u => e ≠ .cmd 1 ∧ u.cmdErr = true
  | .work u => u.cmdErr = true
  | .wait => True
  | .stuck _ => True

theorem commandWord?_eq_some_iff (op : BusOp) (w : Word) : commandWord? op = some w ↔ op = ⟨true, 32, 0, w⟩ := by
  obtain ⟨write, bits, addr, data⟩ := op
  simp [commandWord?, and_assoc]

section
variable {s : State} (h : s.cmdErr = true)
include h

theorem fetchLzw_cmdErrStands : (fetchLzw s).CmdErrStands := by
  unfold fetchLzw
  split
  · exact (lzwHeader_cmdErr s).trans h
  split
  · exact h
  split
  · exact (popPixel_cmdErr s).trans h
  split
  · split
    · exact h
    · next b s1 hread =>
      obtain ⟨-, -, rfl⟩ := (readByte?_some s s1 b).1 hread
      split
      · exact ⟨nofun, h⟩
      · exact h
  · exact ⟨nofun, h⟩

theorem fetchPng_cmdErrStands : (fetchPng s).CmdErrStands := by
  unfold fetchPng
  split
  · exact h
  · next b s1 hread =>
    obtain ⟨-, -, rfl⟩ := (readByte?_some s s1 b).1 hread
    exact ⟨nofun, h⟩

theorem fetchEngine_cmdErrStands : (fetchEngine s).CmdErrStands := by
  unfold fetchEngine
  split
  · exact fetchLzw_cmdErrStands h
  · exact fetchPng_cmdErrStands h
  · trivial
  · trivial

variable (hreset : ¬ ∃ rest, s.inbox = .bus ⟨true, 32, 0, 1⟩ :: rest ∨ s.inbox = .powerOn :: rest)
include hreset

/-- A host event other than RESET and the reset input leaves CMDERR set. -/
theorem fetchHost_cmdErrStands : (fetchHost s).CmdErrStands := by
  unfold fetchHost
  split
  · trivial
  · next rest hi => exact absurd ⟨rest, .inr hi⟩ hreset
  · next op rest hi =>
    split
    · next w hw =>
      obtain rfl := (commandWord?_eq_some_iff op w).1 hw
      refine ⟨fun he => hreset ⟨rest, .inl ?_⟩, h⟩
      rw [hi, Encoding.cmd.inj he]
    · exact busAccess_cmdErr (s := { s with inbox := rest }) h op

theorem fetch_cmdErrStands : (fetch s).CmdErrStands := by
  unfold fetch
  split_ifs
  · exact fetchHost_cmdErrStands h hreset
  · exact fetchEngine_cmdErrStands h
  · trivial

end

/-- Settles O8: unless the host asks for a reset, what a step finds to do and what it executes leave CMDERR set. -/
theorem cmdErrIsSticky : Obligations.CmdErrIsSticky := by
  intro s t h hstep hclear
  by_contra hreset
  have hf := fetch_cmdErrStands h hreset
  have hset : t.cmdErr = true := by
    rcases step_cases s t hstep with ⟨e, s1, u, hw, he, rfl⟩ | ⟨u, hw, rfl⟩ | ⟨-, rfl⟩
    · rw [hw] at hf
      obtain ⟨hword, hs1⟩ := hf
      have hexec := exec_decode_cmdErrStands hs1 s.lzw.ctx hword
      rw [he] at hexec
      exact hexec
    · rw [hw] at hf
      exact hf
    · exact h
  rw [hset] at hclear
  exact Bool.noConfusion hclear

end Sys2Proof.Machine

/-! ## The pixel buffer (41_pixel_buffer.md) -/

namespace Sys2Proof.Machine

/-! ### Bytes written to a window -/

theorem State.byteAt_poke_one (s : State) (sp : Space) (i : Nat) (v : Byte) (a : Nat) :
    (s.poke sp i [v]).byteAt a = if a = sp.base + i then v else s.byteAt a := by
  rw [State.byteAt_poke, List.length_singleton]
  by_cases ha : a = sp.base + i
  · simp [ha]
  · rw [if_neg (by omega), if_neg ha]

theorem State.byteAt_poke_two (s : State) (sp : Space) (i : Nat) (v w : Byte) (a : Nat) :
    (s.poke sp i [v, w]).byteAt a =
      if a = sp.base + i then v else if a = sp.base + i + 1 then w else s.byteAt a := by
  rw [State.byteAt_poke, List.length_cons, List.length_singleton]
  by_cases hv : a = sp.base + i
  · simp [hv]
  by_cases hw : a = sp.base + i + 1
  · simp [hw]
  · rw [if_neg (by omega), if_neg hv, if_neg hw]

theorem State.peek_poke_one (s : State) (sp : Space) (i : Nat) (v : Byte) (j : Nat) :
    (s.poke sp i [v]).peek sp j = if j = i then v else s.peek sp j := by
  simp [State.peek, State.byteAt_poke_one]

theorem State.peek_poke_two (s : State) (sp : Space) (i : Nat) (v w : Byte) (j : Nat) :
    (s.poke sp i [v, w]).peek sp j = if j = i then v else if j = i + 1 then w else s.peek sp j := by
  simp [State.peek, State.byteAt_poke_two, Nat.add_assoc]

/-! ### The two pixel primitives by depth (R135, R136) -/

section
variable {s : State} (x y c v : Nat)

theorem setPixel_of_lt_eight (h : s.outFmt.bpc.toNat < 8) :
    setPixel s x y c v = s.poke .outbuf (s.byteIdx x y c)
      [s.peek .outbuf (s.byteIdx x y c) ||| BitVec.ofNat 8 (v <<< s.shiftOf x y c)] :=
  (if_neg h.ne).trans (if_neg (by omega))

theorem setPixel_of_eight (h : s.outFmt.bpc.toNat = 8) :
    setPixel s x y c v = s.poke .outbuf (s.byteIdx x y c) [BitVec.ofNat 8 v] := if_pos h

theorem setPixel_of_sixteen (h : s.outFmt.bpc.toNat = 16) :
    setPixel s x y c v = s.poke .outbuf (s.byteIdx x y c) [BitVec.ofNat 8 (v / 256), BitVec.ofNat 8 v] :=
  (if_neg (by omega)).trans (if_pos h)

theorem getPixel_of_lt_eight (h : s.outFmt.bpc.toNat < 8) :
    getPixel s x y c =
      ((s.peek .outbuf (s.byteIdx x y c)).toNat >>> s.shiftOf x y c) % 2 ^ s.outFmt.bpc.toNat :=
  (if_neg h.ne).trans (if_neg (by omega))

theorem getPixel_of_eight (h : s.outFmt.bpc.toNat = 8) :
    getPixel s x y c = (s.peek .outbuf (s.byteIdx x y c)).toNat := if_pos h

theorem getPixel_of_sixteen (h : s.outFmt.bpc.toNat = 16) :
    getPixel s x y c =
      (s.peek .outbuf (s.byteIdx x y c)).toNat * 256 + (s.peek .outbuf (s.byteIdx x y c + 1)).toNat :=
  (if_neg (by omega)).trans (if_pos h)

@[simp] theorem setPixel_bitAddr (x' y' c' : Nat) : (setPixel s x y c v).bitAddr x' y' c' = s.bitAddr x' y' c' := by
  rw [setPixel_eq]
  rfl

end

/-! ### Samples as runs of bits

Bits of OUTBUF are counted as `bitAddr` counts them, from the most significant bit of each byte down, so that a sample of
any depth is the run of BPC bits from its address on. -/

/-- Bit `k` of OUTBUF. -/
def State.outBit (s : State) (k : Nat) : Bool := (s.peek .outbuf (k / 8)).getLsbD (7 - k % 8)

/-- A bit inside the byte `b`, by its place in that byte. -/
theorem State.outBit_of_eq {s : State} {k b j : Nat} (hj : j < 8) (hk : k = 8 * b + (7 - j)) :
    s.outBit k = (s.peek .outbuf b).getLsbD j := by
  rw [State.outBit, show k / 8 = b by omega, show 7 - k % 8 = j by omega]

section
variable {s : State} (hdepth : s.outFmt.bpc.toNat ∈ [1, 2, 4, 8, 16])
include hdepth

theorem bpc_cases : s.outFmt.bpc.toNat < 8 ∨ s.outFmt.bpc.toNat = 8 ∨ s.outFmt.bpc.toNat = 16 := by
  simp only [List.mem_cons, List.not_mem_nil, or_false] at hdepth
  omega

/-- No sample crosses a byte boundary below 8 bits, and from 8 bits on a sample starts at one (R133). -/
theorem State.bitAddr_mod_eight_add_le (x y c : Nat) : s.bitAddr x y c % 8 + min s.outFmt.bpc.toNat 8 ≤ 8 := by
  have hrow : s.bitAddr x y c % 8 = (x * s.outFmt.ncomp.toNat + c) * s.outFmt.bpc.toNat % 8 := by
    rw [State.bitAddr, Nat.mul_assoc 8, Nat.mul_add_mod]
  rw [hrow]
  generalize x * s.outFmt.ncomp.toNat + c = n
  simp only [List.mem_cons, List.not_mem_nil, or_false] at hdepth
  rcases hdepth with h | h | h | h | h
  all_goals
    rw [h]
    omega

/-! Where bit `j` of a sample stands: the place is that of the geometry of `s`, the memory that of any state. -/

theorem State.outBit_sample_of_lt_eight (h : s.outFmt.bpc.toNat < 8) (t : State) (x y c : Nat) {j : Nat}
    (hj : j < s.outFmt.bpc.toNat) :
    t.outBit (s.bitAddr x y c + (s.outFmt.bpc.toNat - 1 - j)) =
      (t.peek .outbuf (s.byteIdx x y c)).getLsbD (s.shiftOf x y c + j) := by
  have halign := State.bitAddr_mod_eight_add_le hdepth x y c
  refine State.outBit_of_eq ?_ ?_
  all_goals
    simp only [State.shiftOf, State.byteIdx]
    omega

theorem State.outBit_sample_of_eight (h : s.outFmt.bpc.toNat = 8) (t : State) (x y c : Nat) {j : Nat} (hj : j < 8) :
    t.outBit (s.bitAddr x y c + (s.outFmt.bpc.toNat - 1 - j)) = (t.peek .outbuf (s.byteIdx x y c)).getLsbD j := by
  have halign := State.bitAddr_mod_eight_add_le hdepth x y c
  refine State.outBit_of_eq hj ?_
  simp only [State.byteIdx]
  omega

theorem State.outBit_sample_of_sixteen (h : s.outFmt.bpc.toNat = 16) (t : State) (x y c : Nat) {j : Nat} (hj : j < 16) :
    t.outBit (s.bitAddr x y c + (s.outFmt.bpc.toNat - 1 - j)) =
      if j < 8 then (t.peek .outbuf (s.byteIdx x y c + 1)).getLsbD j
      else (t.peek .outbuf (s.byteIdx x y c)).getLsbD (j - 8) := by
  have halign := State.bitAddr_mod_eight_add_le hdepth x y c
  split
  all_goals
    refine State.outBit_of_eq (by omega) ?_
    simp only [State.byteIdx]
    omega

/-! What the primitives do, by bits. -/

theorem getPixel_lt (x y c : Nat) : getPixel s x y c < 2 ^ s.outFmt.bpc.toNat := by
  rcases bpc_cases hdepth with h | h | h
  · rw [getPixel_of_lt_eight _ _ _ h]
    exact Nat.mod_lt _ (Nat.two_pow_pos _)
  · rw [getPixel_of_eight _ _ _ h, h]
    exact BitVec.isLt _
  · rw [getPixel_of_sixteen _ _ _ h, h]
    have hhi := (s.peek .outbuf (s.byteIdx x y c)).isLt
    have hlo := (s.peek .outbuf (s.byteIdx x y c + 1)).isLt
    omega

theorem testBit_getPixel (x y c : Nat) {j : Nat} (hj : j < s.outFmt.bpc.toNat) :
    (getPixel s x y c).testBit j = s.outBit (s.bitAddr x y c + (s.outFmt.bpc.toNat - 1 - j)) := by
  rcases bpc_cases hdepth with h | h | h
  · rw [State.outBit_sample_of_lt_eight hdepth h s x y c hj, getPixel_of_lt_eight _ _ _ h, Nat.testBit_mod_two_pow,
      decide_eq_true hj, Bool.true_and, Nat.testBit_shiftRight, BitVec.testBit_toNat]
  · rw [State.outBit_sample_of_eight hdepth h s x y c (h ▸ hj), getPixel_of_eight _ _ _ h, BitVec.testBit_toNat]
  · rw [State.outBit_sample_of_sixteen hdepth h s x y c (h ▸ hj), getPixel_of_sixteen _ _ _ h, Nat.mul_comm,
      show (256 : Nat) = 2 ^ 8 from rfl, Nat.testBit_two_pow_mul_add _ (BitVec.isLt _), BitVec.testBit_toNat,
      BitVec.testBit_toNat]

/-- A sample is known by its bits in OUTBUF. -/
theorem getPixel_eq_of_outBit {x y c n : Nat} (hn : n < 2 ^ s.outFmt.bpc.toNat)
    (h : ∀ j < s.outFmt.bpc.toNat, s.outBit (s.bitAddr x y c + (s.outFmt.bpc.toNat - 1 - j)) = n.testBit j) :
    getPixel s x y c = n := by
  refine Nat.eq_of_testBit_eq fun j => ?_
  by_cases hj : j < s.outFmt.bpc.toNat
  · rw [testBit_getPixel hdepth x y c hj, h j hj]
  · have hpow := Nat.pow_le_pow_right Nat.two_pos (Nat.le_of_not_lt hj)
    rw [Nat.testBit_lt_two_pow ((getPixel_lt hdepth x y c).trans_le hpow), Nat.testBit_lt_two_pow (hn.trans_le hpow)]

/-- Writing a sample stores the bits of the value, ORed with what stood there below 8 bits (R135). -/
theorem outBit_setPixel_inside (x y c v : Nat) {j : Nat} (hj : j < s.outFmt.bpc.toNat) :
    (setPixel s x y c v).outBit (s.bitAddr x y c + (s.outFmt.bpc.toNat - 1 - j)) =
      (decide (s.outFmt.bpc.toNat < 8) && s.outBit (s.bitAddr x y c + (s.outFmt.bpc.toNat - 1 - j)) || v.testBit j) := by
  rcases bpc_cases hdepth with h | h | h
  · have hplace : s.shiftOf x y c + j < 8 := by
      simp only [State.shiftOf]
      omega
    rw [State.outBit_sample_of_lt_eight hdepth h _ x y c hj, State.outBit_sample_of_lt_eight hdepth h _ x y c hj,
      setPixel_of_lt_eight _ _ _ _ h, State.peek_poke_one, if_pos rfl, decide_eq_true h, Bool.true_and, BitVec.getLsbD_or,
      BitVec.getLsbD_ofNat, decide_eq_true hplace, Nat.testBit_shiftLeft]
    simp
  · rw [h] at hj
    rw [State.outBit_sample_of_eight hdepth h _ x y c hj, setPixel_of_eight _ _ _ _ h, State.peek_poke_one, if_pos rfl,
      BitVec.getLsbD_ofNat]
    simp [h, hj]
  · rw [h] at hj
    have hhigh (hlow : ¬ j < 8) : (v / 256).testBit (j - 8) = v.testBit j := by
      rw [show (256 : Nat) = 2 ^ 8 from rfl, Nat.testBit_div_two_pow, Nat.sub_add_cancel (Nat.le_of_not_lt hlow)]
    rw [State.outBit_sample_of_sixteen hdepth h _ x y c hj, setPixel_of_sixteen _ _ _ _ h, State.peek_poke_two,
      State.peek_poke_two, if_neg (Nat.succ_ne_self _), if_pos rfl, if_pos rfl, BitVec.getLsbD_ofNat,
      BitVec.getLsbD_ofNat, h]
    split_ifs with hlow
    · simp [hlow]
    · simp [hhigh hlow, show j - 8 < 8 by omega]

/-- Writing a value that fits changes no bit outside the sample (R133, R135). -/
theorem outBit_setPixel_outside (x y c : Nat) {v k : Nat} (hv : v < 2 ^ s.outFmt.bpc.toNat)
    (hk : k < s.bitAddr x y c ∨ s.bitAddr x y c + s.outFmt.bpc.toNat ≤ k) :
    (setPixel s x y c v).outBit k = s.outBit k := by
  have halign := State.bitAddr_mod_eight_add_le hdepth x y c
  rcases bpc_cases hdepth with h | h | h
  · by_cases hbyte : k / 8 = s.byteIdx x y c
    · have hmissed : (v <<< s.shiftOf x y c).testBit (7 - k % 8) = false := by
        rw [Nat.testBit_shiftLeft, Bool.and_eq_false_imp, decide_eq_true_eq]
        intro hleft
        refine Nat.testBit_lt_two_pow (hv.trans_le (Nat.pow_le_pow_right Nat.two_pos ?_))
        simp only [State.byteIdx] at hbyte
        simp only [State.shiftOf] at hleft ⊢
        omega
      rw [setPixel_of_lt_eight _ _ _ _ h, State.outBit, State.peek_poke_one, if_pos hbyte, BitVec.getLsbD_or,
        BitVec.getLsbD_ofNat, hmissed, Bool.and_false, Bool.or_false, ← hbyte, State.outBit]
    · rw [setPixel_of_lt_eight _ _ _ _ h, State.outBit, State.peek_poke_one, if_neg hbyte, State.outBit]
  · have hbyte : k / 8 ≠ s.byteIdx x y c := by
      simp only [State.byteIdx]
      omega
    rw [setPixel_of_eight _ _ _ _ h, State.outBit, State.peek_poke_one, if_neg hbyte, State.outBit]
  · have hbyte : k / 8 ≠ s.byteIdx x y c ∧ k / 8 ≠ s.byteIdx x y c + 1 := by
      simp only [State.byteIdx]
      omega
    rw [setPixel_of_sixteen _ _ _ _ h, State.outBit, State.peek_poke_two, if_neg hbyte.1, if_neg hbyte.2, State.outBit]

/-! ### Reading after writing (R139) -/

theorem getPixel_setPixel_same (x y c : Nat) {v : Nat} (hv : v < 2 ^ s.outFmt.bpc.toNat) :
    getPixel (setPixel s x y c v) x y c = (if s.outFmt.bpc.toNat < 8 then getPixel s x y c else 0) ||| v := by
  refine getPixel_eq_of_outBit (by simpa using hdepth) ?_ fun j hj => ?_
  · rw [setPixel_outFmt]
    refine Nat.or_lt_two_pow ?_ hv
    split
    · exact getPixel_lt hdepth x y c
    · exact Nat.two_pow_pos _
  · rw [setPixel_outFmt] at hj ⊢
    rw [setPixel_bitAddr, outBit_setPixel_inside hdepth x y c v hj, ← testBit_getPixel hdepth x y c hj, Nat.testBit_or]
    split_ifs with h
    · rw [decide_eq_true h, Bool.true_and]
    · rw [decide_eq_false h, Bool.false_and, Nat.zero_testBit]

end

/-- Samples lie in the order of their rows, their pixels and their components, without overlap (R133). -/
theorem State.bitAddr_add_bpc_le_of_lex {s : State} {x y c x' y' c' : Nat} (h : InBounds s x y c)
    (hlex : y < y' ∨ y = y' ∧ (x < x' ∨ x = x' ∧ c < c')) :
    s.bitAddr x y c + s.outFmt.bpc.toNat ≤ s.bitAddr x' y' c' := by
  obtain ⟨hx, -, hc⟩ := h
  have hpixel {x₁ : Nat} (hlt : x < x₁) : x * s.outFmt.ncomp.toNat + c + 1 ≤ x₁ * s.outFmt.ncomp.toNat :=
    calc x * s.outFmt.ncomp.toNat + c + 1 ≤ (x + 1) * s.outFmt.ncomp.toNat := by rw [Nat.succ_mul]; omega
      _ ≤ x₁ * s.outFmt.ncomp.toNat := Nat.mul_le_mul_right _ hlt
  have hend : s.bitAddr x y c + s.outFmt.bpc.toNat =
      8 * y * s.stride + (x * s.outFmt.ncomp.toNat + c + 1) * s.outFmt.bpc.toNat := by
    unfold State.bitAddr
    ring
  rw [hend]
  rcases hlex with hrow | ⟨rfl, hsample⟩
  · calc 8 * y * s.stride + (x * s.outFmt.ncomp.toNat + c + 1) * s.outFmt.bpc.toNat
        ≤ 8 * y * s.stride + 8 * s.stride :=
          Nat.add_le_add_left ((Nat.mul_le_mul_right _ (hpixel hx)).trans (le_mul_strideOf ..)) _
      _ = 8 * (y + 1) * s.stride := by ring
      _ ≤ 8 * y' * s.stride := Nat.mul_le_mul_right _ (Nat.mul_le_mul_left 8 hrow)
      _ ≤ s.bitAddr x' y' c' := Nat.le_add_right _ _
  · refine Nat.add_le_add_left (Nat.mul_le_mul_right _ ?_) _
    rcases hsample with hlt | ⟨rfl, hcomp⟩
    · exact (hpixel hlt).trans (Nat.le_add_right _ _)
    · exact Nat.add_le_add_left hcomp _

theorem State.bitAddr_disjoint {s : State} {x y c x' y' c' : Nat} (h : InBounds s x y c) (h' : InBounds s x' y' c')
    (hne : (x', y', c') ≠ (x, y, c)) :
    s.bitAddr x y c + s.outFmt.bpc.toNat ≤ s.bitAddr x' y' c' ∨
      s.bitAddr x' y' c' + s.outFmt.bpc.toNat ≤ s.bitAddr x y c := by
  have hlex : (y < y' ∨ y = y' ∧ (x < x' ∨ x = x' ∧ c < c')) ∨ (y' < y ∨ y' = y ∧ (x' < x ∨ x' = x ∧ c' < c)) := by
    simp only [ne_eq, Prod.mk.injEq] at hne
    omega
  exact hlex.imp (State.bitAddr_add_bpc_le_of_lex h) (State.bitAddr_add_bpc_le_of_lex h')

/-- Writing a value that fits changes no other sample (R139). -/
theorem getPixel_setPixel_other {s : State} (hdepth : s.outFmt.bpc.toNat ∈ [1, 2, 4, 8, 16]) {x y c x' y' c' v : Nat}
    (hv : v < 2 ^ s.outFmt.bpc.toNat) (h : InBounds s x y c) (h' : InBounds s x' y' c')
    (hne : (x', y', c') ≠ (x, y, c)) :
    getPixel (setPixel s x y c v) x' y' c' = getPixel s x' y' c' := by
  have hdisjoint := State.bitAddr_disjoint h h' hne
  refine getPixel_eq_of_outBit (by simpa using hdepth) ?_ fun j hj => ?_
  · rw [setPixel_outFmt]
    exact getPixel_lt hdepth x' y' c'
  · rw [setPixel_outFmt] at hj ⊢
    rw [setPixel_bitAddr, outBit_setPixel_outside hdepth x y c hv (by omega), testBit_getPixel hdepth x' y' c' hj]

/-- Settles O25: the first write meets a zero sample, the second one the value of the first. -/
theorem setThenGetRoundTrips : Obligations.SetThenGetRoundTrips := by
  intro s x y c v hgeom hin hzero hv
  have hfirst : getPixel (setPixel s x y c v) x y c = v := by
    rw [getPixel_setPixel_same hgeom.depth x y c hv, hzero, ite_self, Nat.zero_or]
  refine ⟨hfirst, fun x' y' c' h' hne => getPixel_setPixel_other hgeom.depth hv hin h' hne, fun w h8 hw => ?_⟩
  rw [getPixel_setPixel_same (by simpa using hgeom.depth) x y c (by simpa using hw), if_pos (by simpa using h8), hfirst]

/-! ### The commands (R131, R137, R140 to R142) -/

section
variable {s : State} (hready : s.engine = .idle ∨ s.engine = .done)
include hready

theorem exec_pbClear_of_legal (hgeom : GeomLegal s) :
    exec .pbClear s = .next (if s.outFmt.mask then (s.zeroFill .outbuf s.usedOut).zeroFill .maskbuf s.usedMask
      else s.zeroFill .outbuf s.usedOut) := by
  have haccepts := (acceptsWork_iff s).2 hready
  have hcheck := (State.geomOK_iff s).2 hgeom
  cases hmask : s.outFmt.mask <;> simp [exec, execPbClear, haccepts, hcheck, hmask]

theorem exec_pbSet_of_legal (hgeom : GeomLegal s) (hin : InBounds s s.pxX.toNat s.pxY.toNat s.pxC.toNat) :
    exec .pbSet s = .next (setPixel s s.pxX.toNat s.pxY.toNat s.pxC.toNat s.pxV.toNat) := by
  have haccepts := (acceptsWork_iff s).2 hready
  have hcheck := (State.geomOK_iff s).2 hgeom
  have hbounds := (State.pxInBounds_iff s).2 hin
  simp [exec, execPbSet, haccepts, hcheck, hbounds]

theorem exec_pbGet_of_legal (hgeom : GeomLegal s) (hin : InBounds s s.pxX.toNat s.pxY.toNat s.pxC.toNat) :
    exec .pbGet s =
      .next { s with pxV := BitVec.ofNat 32 (getPixel s s.pxX.toNat s.pxY.toNat s.pxC.toNat) } := by
  have haccepts := (acceptsWork_iff s).2 hready
  have hcheck := (State.geomOK_iff s).2 hgeom
  have hbounds := (State.pxInBounds_iff s).2 hin
  simp [exec, execPbGet, haccepts, hcheck, hbounds]

end

theorem raisePb_eq_faulted (s : State) (code : FaultCode) : raisePb code s = faulted s .pb code := rfl

/-- Settles O23: each of the three commands checks the geometry first. -/
theorem illegalGeometryFaults : Obligations.IllegalGeometryFaults := by
  intro s hready hgeom i hi
  have haccepts := (acceptsWork_iff s).2 hready
  have hcheck : s.geomOK = false := by rwa [← Bool.not_eq_true, State.geomOK_iff]
  simp only [List.mem_cons, List.not_mem_nil, or_false] at hi
  rcases hi with rfl | rfl | rfl
  · simp [exec, execPbClear, haccepts, hcheck, raisePb_eq_faulted]
  · simp [exec, execPbSet, haccepts, hcheck, raisePb_eq_faulted]
  · simp [exec, execPbGet, haccepts, hcheck, raisePb_eq_faulted]

/-- Settles O24: past the geometry check, both commands check the bounds next. -/
theorem outOfBoundsFaults : Obligations.OutOfBoundsFaults := by
  intro s hready hgeom hout i hi
  have haccepts := (acceptsWork_iff s).2 hready
  have hcheck := (State.geomOK_iff s).2 hgeom
  have hbounds : s.pxInBounds = false := by rwa [← Bool.not_eq_true, State.pxInBounds_iff]
  simp only [List.mem_cons, List.not_mem_nil, or_false] at hi
  rcases hi with rfl | rfl
  · simp [exec, execPbSet, haccepts, hcheck, hbounds, raisePb_eq_faulted]
  · simp [exec, execPbGet, haccepts, hcheck, hbounds, raisePb_eq_faulted]

/-- Settles O20: with a mask MASKBUF is filled after OUTBUF, and without one no address is in its used region. -/
theorem pbClearZeroesTheUsedRegion : Obligations.PbClearZeroesTheUsedRegion := by
  intro s hready hgeom
  rw [exec_pbClear_of_legal hready hgeom]
  cases hmask : s.outFmt.mask
  case false =>
    refine ⟨s.zeroFill .outbuf s.usedOut, rfl, rfl, fun a ho => ?_, fun a hm => ?_, fun a ho _ => ?_⟩
    · rw [State.byteAt_zeroFill]
      exact if_pos ho
    · exact absurd hm.1 (by simp [hmask])
    · rw [State.byteAt_zeroFill]
      exact if_neg ho
  case true =>
    refine ⟨(s.zeroFill .outbuf s.usedOut).zeroFill .maskbuf s.usedMask, rfl, rfl, fun a ho => ?_, fun a hm => ?_,
      fun a ho hm => ?_⟩
    all_goals rw [State.byteAt_zeroFill, State.byteAt_zeroFill]
    · exact ite_eq_left_iff.2 fun _ => if_pos ho
    · exact if_pos hm.2
    · exact (if_neg fun hin => hm ⟨hmask, hin⟩).trans (if_neg ho)

/-- Settles O21: by depth, the bytes that the write puts at the sample's address. -/
theorem pbSetWritesTheSample : Obligations.PbSetWritesTheSample := by
  intro s hready hgeom hin
  refine ⟨_, exec_pbSet_of_legal hready hgeom hin, setPixel_eq .., ?_⟩
  rintro _ b rfl hb
  obtain rfl : b = Space.outbuf.base + s.byteIdx s.pxX.toNat s.pxY.toNat s.pxC.toNat := hb
  refine ⟨fun h => ?_, fun h => ?_, fun h => ?_⟩
  · rw [setPixel_of_lt_eight _ _ _ _ h]
    exact ⟨(State.byteAt_poke_one ..).trans (if_pos rfl), fun a ha => (State.byteAt_poke_one ..).trans (if_neg ha)⟩
  · rw [setPixel_of_eight _ _ _ _ h]
    refine ⟨?_, fun a ha => (State.byteAt_poke_one ..).trans (if_neg ha)⟩
    rw [State.byteAt_poke_one, if_pos rfl, BitVec.toNat_ofNat]
  · rw [setPixel_of_sixteen _ _ _ _ h]
    refine ⟨?_, ?_, fun a ha ha' => ?_⟩
    · rw [State.byteAt_poke_two, if_pos rfl, BitVec.toNat_ofNat]
      omega
    · rw [State.byteAt_poke_two, if_neg (Nat.succ_ne_self _), if_pos rfl, BitVec.toNat_ofNat]
    · rw [State.byteAt_poke_two, if_neg ha, if_neg ha']

/-- Settles O22: a sample has at most 16 bits, so PX_V holds it whole. -/
theorem pbGetReadsTheSample : Obligations.PbGetReadsTheSample := by
  intro s hready hgeom hin
  rintro _ _ rfl rfl
  have hwidth : s.outFmt.bpc.toNat ≤ 32 := s.outFmt.bpc.isLt.le
  have hfits := (getPixel_lt hgeom.depth s.pxX.toNat s.pxY.toNat s.pxC.toNat).trans_le
    (Nat.pow_le_pow_right Nat.two_pos hwidth)
  refine ⟨_, exec_pbGet_of_legal hready hgeom hin, ?_⟩
  rw [BitVec.toNat_ofNat, Nat.mod_eq_of_lt hfits]
  exact ⟨getPixel_of_lt_eight _ _ _, getPixel_of_eight _ _ _, getPixel_of_sixteen _ _ _⟩

end Sys2Proof.Machine

/-! ## The LZW unit (42_lzw.md) -/

namespace Sys2Proof.Machine

/-! ### What a pass through the loop finds to do (R169) -/

section
variable {s : State}

/-- A pending header is read before the loop (R160; log 9). -/
theorem fetchLzw_of_pendingHeader (hd : s.lzw.dataSize = 0) : fetchLzw s = .work (lzwHeader s) := by
  rw [fetchLzw, if_pos hd]

/-- With every pixel placed the loop ends (R176). -/
theorem fetchLzw_of_allPlaced (hd : s.lzw.dataSize ≠ 0) (hp : s.width.toNat * s.height.toNat ≤ s.pixCnt.toNat) :
    fetchLzw s = .work (finish .pixelsDone s) := by
  rw [fetchLzw, if_neg hd, if_pos hp]

section
variable (hd : s.lzw.dataSize ≠ 0) (hp : s.pixCnt.toNat < s.width.toNat * s.height.toNat)
include hd hp

/-- A pixel on the stack is popped (R178). -/
theorem fetchLzw_of_pixel (ht : s.lzw.top ≠ 0) : fetchLzw s = .work (popPixel s) := by
  rw [fetchLzw, if_neg hd, if_neg (Nat.not_le.2 hp), if_pos ht]

variable (ht : s.lzw.top = 0) (hb : s.lzw.bits.toNat < s.lzw.codeSize.toNat)
include ht hb

/-- A byte that is needed and absent ends the loop with a fault (R162). -/
theorem fetchLzw_of_exhausted (hi : s.inLen.toNat ≤ s.inPos.toNat) :
    fetchLzw s = .work (raise .prematureEndOfStream s) := by
  rw [fetchLzw_of_needsByte hd hp ht hb, (readByte?_none s).2 hi]

/-- With no block open the next byte is a length (R165). -/
theorem fetchLzw_of_lengthByte (hc : s.lzw.count = 0) (hi : s.inPos.toNat < s.inLen.toNat) :
    fetchLzw s = .word (.len (s.byteAt (0x10000000 + s.inPos.toNat))) { s with inPos := s.inPos + 1 } := by
  rw [fetchLzw_of_needsByte hd hp ht hb, readByte?_of_lt hi]
  exact if_pos hc

end

/-- The seven things that a pass can find to do, for a property that each of them has. -/
theorem fetchLzw_cases {P : Fetched → Prop}
    (header : s.lzw.dataSize = 0 → P (.work (lzwHeader s)))
    (allPlaced : s.lzw.dataSize ≠ 0 → s.width.toNat * s.height.toNat ≤ s.pixCnt.toNat →
      P (.work (finish .pixelsDone s)))
    (pixel : s.lzw.dataSize ≠ 0 → s.pixCnt.toNat < s.width.toNat * s.height.toNat → P (.work (popPixel s)))
    (exhausted : s.lzw.dataSize ≠ 0 → s.pixCnt.toNat < s.width.toNat * s.height.toNat →
      P (.work (raise .prematureEndOfStream s)))
    (length : s.lzw.dataSize ≠ 0 → s.pixCnt.toNat < s.width.toNat * s.height.toNat →
      P (.word (.len (s.byteAt (0x10000000 + s.inPos.toNat))) { s with inPos := s.inPos + 1 }))
    (data : s.lzw.dataSize ≠ 0 → s.pixCnt.toNat < s.width.toNat * s.height.toNat → P (.work { s with
      inPos := s.inPos + 1
      lzw := { s.lzw.loadByte (s.byteAt (0x10000000 + s.inPos.toNat)) with count := s.lzw.count - 1 } }))
    (code : s.lzw.dataSize ≠ 0 → s.pixCnt.toNat < s.width.toNat * s.height.toNat → s.lzw.top = 0 →
      s.lzw.codeSize.toNat ≤ s.lzw.bits.toNat → P (.word (.code s.lzw.nextCode) { s with lzw := s.lzw.dropCode })) :
    P (fetchLzw s) := by
  by_cases hd : s.lzw.dataSize = 0
  · rw [fetchLzw_of_pendingHeader hd]
    exact header hd
  rcases Nat.lt_or_ge s.pixCnt.toNat (s.width.toNat * s.height.toNat) with hp | hp
  case inr =>
    rw [fetchLzw_of_allPlaced hd hp]
    exact allPlaced hd hp
  by_cases ht : s.lzw.top = 0
  case neg =>
    rw [fetchLzw_of_pixel hd hp ht]
    exact pixel hd hp
  rcases Nat.lt_or_ge s.lzw.bits.toNat s.lzw.codeSize.toNat with hb | hb
  case inr =>
    rw [fetchLzw_of_code hd hp ht hb]
    exact code hd hp ht hb
  rcases Nat.lt_or_ge s.inPos.toNat s.inLen.toNat with hi | hi
  case inr =>
    rw [fetchLzw_of_exhausted hd hp ht hb hi]
    exact exhausted hd hp
  by_cases hc : s.lzw.count = 0
  · rw [fetchLzw_of_lengthByte hd hp ht hb hc hi]
    exact length hd hp
  · rw [fetchLzw_of_openBlock hd hp ht hb hc hi]
    exact data hd hp

/-- A step that finds work in the loop does it. -/
theorem step_of_fetchLzw_work {t : State} (hm : s.hostMoves = false) (hb : s.engine = .busy) (hu : s.unit = .lzw)
    (hw : fetchLzw s = .work t) : step s = .next (tick t) :=
  step_of_work ((fetch_of_lzw hm hb hu).trans hw)

end

/-! ### No meaning stops in a state that meets the invariant (R177, 30_encoding.md R87; log 13) -/

/-- A meaning answers a next state. -/
def Completes (r : Result) : Prop := ∃ t, r = .next t

theorem Completes.of_next (t : State) : Completes (.next t) := ⟨t, rfl⟩

/-- A command of the acceptance table completes, accepted or refused. -/
theorem AcceptedIf.completes {accepts : Bool} {i : Instr} {s : State} (h : AcceptedIf accepts i s) :
    Completes (exec i s) := by
  cases hacc : accepts with
  | true =>
    obtain ⟨t, ht, -⟩ := h.accepted hacc
    exact ⟨t, ht⟩
  | false => exact ⟨_, h.refused hacc⟩

theorem exec_decodeCmd_completes (w : Word) (s : State) : Completes (exec (decodeCmd w) s) := by
  unfold decodeCmd
  iterate 29 refine exec_ite (P := Completes) (.of_next (refuse s)) ?_
  refine exec_ite (P := Completes) (.of_next s) ?_
  refine exec_ite (P := Completes) (.of_next _) ?_
  refine exec_ite (abort_accepted s).completes ?_
  refine exec_ite (pbClear_accepted s).completes ?_
  refine exec_ite (pbSet_accepted s).completes ?_
  refine exec_ite (pbGet_accepted s).completes ?_
  exact exec_ite (lzwStart_accepted s).completes (pngStart_accepted s).completes

theorem openSubBlock_completes (len : Nat) (s : State) : Completes (openSubBlock len s) := by
  unfold openSubBlock
  split
  all_goals exact .of_next _

theorem exec_decodeLen_completes (b : Byte) (s : State) : Completes (exec (decodeLen b) s) := by
  rcases exec_decodeLen_cases b s with heq | ⟨len, heq⟩ <;> rw [heq]
  · exact .of_next _
  · exact openSubBlock_completes len s

theorem filterRow_completes (pred : Predictor) (s : State) : Completes (filterRow pred s) := by
  unfold filterRow
  split
  all_goals exact .of_next _

theorem exec_decodeFilter_completes (b : Byte) (s : State) : Completes (exec (decodeFilter b) s) :=
  exec_decodeFilter_cases (filterRow_completes · s) (.of_next _) b

theorem execLzwBad_completes (code : BitVec 12) (s : State) : Completes (execLzwBad code s) := by
  unfold execLzwBad
  split
  all_goals exact .of_next _

theorem Lzw.toNat_top_of_empty {l : Lzw} (ht : l.top = 0) : l.top.toNat = 0 := by simp [ht]

/-- An empty stack has room for a root's pixel. -/
theorem Lzw.push?_of_empty {l : Lzw} (ht : l.top = 0) (v : Byte) :
    ∃ m, l.push? v = some m ∧ l.SameDict m ∧ m.top.toNat = 1 := by
  have hempty := Lzw.toNat_top_of_empty ht
  obtain ⟨m, hpush, hdict, htop, -⟩ := l.push?_spec v (by simp [hempty, Config.lzwStackEntries])
  exact ⟨m, hpush, hdict, by omega⟩

theorem execLzwFirst_completes {s : State} (htop : s.lzw.top = 0) (code : BitVec 12) :
    Completes (execLzwFirst code s) := by
  obtain ⟨m, hpush, -⟩ := Lzw.push?_of_empty htop (s.lzw.sfx.get code.toNat)
  rw [execLzwFirst, hpush]
  exact .of_next _

/-- A chain of parents is shorter than the stack, so a data code's pushes fit on an empty one (42_lzw.md R177). -/
theorem decodeStep_completes {s : State} (hgood : s.lzw.Good) (htop : s.lzw.top = 0) {old code : BitVec 12}
    (hold : s.lzw.oldCode = some old) (hcode : s.lzw.entryBelow (s.lzw.available.toNat + 1) code) :
    Completes (decodeStep code s) := by
  have hparent := hgood.oldCode old hold
  have hempty := Lzw.toNat_top_of_empty htop
  obtain ⟨hle, hclass⟩ := hcode
  rcases Nat.lt_or_ge s.lzw.available.toNat 4096 with hroom | hfull
  · have hentry : s.lzw.entryBelow s.lzw.available.toNat code ∨ code.toNat = s.lzw.available.toNat :=
      (Nat.lt_succ_iff_lt_or_eq.1 hle).imp_left fun hlt => ⟨hlt, hclass⟩
    obtain ⟨_, _, hnext, -⟩ := decodeStep_next s old code hold hgood.entries hroom hparent hempty hentry
    exact ⟨_, hnext⟩
  · obtain ⟨_, hnext, -⟩ := decodeStep_full s old code hold hgood.entries (hgood.available.2.antisymm hfull) hparent
      hempty ⟨code.isLt.trans_le hfull, hclass⟩
    exact ⟨_, hnext⟩

/-- A code that is neither BAD nor FIRST has a previous code (30_encoding.md R87). -/
theorem exists_oldCode_of_data {c : LzwCtx} {code : BitVec 12} (hbad : ¬ c.isBad code = true)
    (hfirst : ¬ c.isFirst code = true) : ∃ old, c.oldCode = some old := by
  rw [LzwCtx.isBad_iff] at hbad
  rw [LzwCtx.isFirst_iff] at hfirst
  cases hold : c.oldCode with
  | some old => exact ⟨old, rfl⟩
  | none =>
    simp only [hold, true_and] at hbad hfirst
    omega

/-- Whatever class a code is of, its instruction completes. -/
theorem exec_decodeCode_completes {s : State} (hgood : s.lzw.Good) (htop : s.lzw.top = 0) (code : BitVec 12) :
    Completes (exec (decodeCode s.lzw.ctx code) s) := by
  unfold decodeCode
  split_ifs with hclear hend hbad hfirst hkwkwk hlit
  · exact .of_next _
  · exact .of_next _
  · exact execLzwBad_completes code s
  · exact execLzwFirst_completes htop code
  all_goals
    obtain ⟨old, hold⟩ := exists_oldCode_of_data hbad hfirst
    exact decodeStep_completes hgood htop hold (Lzw.entryBelow_of_data hclear hend hbad)

/-- A step finds something to do that completes; a word that it reads decodes in context `c`. -/
def Fetched.Completes (c : LzwCtx) : Fetched → Prop
  | .word e s => Machine.Completes (exec (decode c e) s)
  | .work _ => True
  | .wait => True
  | .stuck _ => False

theorem fetchHost_completes (s : State) (c : LzwCtx) : (fetchHost s).Completes c := by
  unfold fetchHost
  split
  · trivial
  · trivial
  · split
    · exact exec_decodeCmd_completes _ _
    · trivial

theorem fetchPng_completes (s : State) (c : LzwCtx) : (fetchPng s).Completes c := by
  unfold fetchPng
  split
  · trivial
  · exact exec_decodeFilter_completes _ _

/-- A code is taken only from a good unit with an empty stack (R169). -/
theorem fetchLzw_completes {s : State} (r : LzwRun s) : (fetchLzw s).Completes s.lzw.ctx := by
  refine fetchLzw_cases (P := (·.Completes s.lzw.ctx)) ?header ?allPlaced ?pixel ?exhausted ?length ?data ?code
  case length => exact fun _ _ => exec_decodeLen_completes _ _
  case code =>
    intro hd _ ht hb
    have hgood : s.lzw.dropCode.Good := (r.good hd).dropCode hb
    exact exec_decodeCode_completes (s := { s with lzw := s.lzw.dropCode }) hgood ht s.lzw.nextCode
  case header => exact fun _ => trivial
  all_goals exact fun _ _ => trivial

theorem fetch_completes {s : State} (h : Inv s) : (fetch s).Completes s.lzw.ctx := by
  unfold fetch
  split_ifs with hhost hbusy
  · exact fetchHost_completes s _
  · have hb := (isBusy_iff s).1 hbusy
    unfold fetchEngine
    rcases h.status.running hb with hu | hu <;> rw [hu]
    · exact fetchLzw_completes (h.lzw hb hu)
    · exact fetchPng_completes s _
  · trivial

/-- Settles O4: whatever a step finds to do completes, and a BUSY state has a unit to find it. -/
theorem stepNeverStops : Obligations.StepNeverStops := by
  intro s h
  have hf := fetch_completes h
  cases hw : fetch s with
  | word e u =>
    rw [hw] at hf
    obtain ⟨t, ht⟩ := hf
    exact ⟨tick t, by rw [step_of_word hw, ht, tickResult_next]⟩
  | work u => exact ⟨tick u, step_of_work hw⟩
  | wait => exact ⟨s, by rw [step, hw]⟩
  | stuck f =>
    rw [hw] at hf
    exact hf.elim

end Sys2Proof.Machine

/-! ### LZW_START (R161, R163) -/

namespace Sys2Proof.Machine

section
variable {s : State} (hready : s.engine = .idle ∨ s.engine = .done)
include hready

theorem exec_lzwStart_of_legal (hlegal : LzwLegal s) :
    exec .lzwStart s = .next { lzwInit (beginUnit .lzw s) with engine := .busy } := by
  have haccepts := (acceptsWork_iff s).2 hready
  have hcheck := (State.lzwCheck_iff s).2 hlegal
  simp [exec, execLzwStart, haccepts, hcheck]

theorem exec_lzwStart_of_illegal (hlegal : ¬ LzwLegal s) :
    exec .lzwStart s = .next (raise .unsupportedConfiguration (beginUnit .lzw s)) := by
  have haccepts := (acceptsWork_iff s).2 hready
  have hcheck : s.lzwCheck = false := by rwa [← Bool.not_eq_true, State.lzwCheck_iff]
  simp [exec, execLzwStart, haccepts, hcheck]

end

/-- `lzwInit` zeroes the used region of the format that it sets, and no other byte. -/
theorem byteAt_lzwInit (s : State) (a : Nat) :
    (InUsedOut (lzwInit s) a → (lzwInit s).byteAt a = 0) ∧
      (¬ InUsedOut (lzwInit s) a → (lzwInit s).byteAt a = s.byteAt a) := by
  have hfill : (lzwInit s).byteAt a =
      (s.zeroFill .outbuf (strideOf s.width.toNat 1 s.inFmt.bitDepth.toNat * s.height.toNat)).byteAt a :=
    State.byteAt_congr rfl rfl a
  rw [hfill, State.byteAt_zeroFill]
  exact ⟨fun hin => if_pos hin, fun hout => if_neg hout⟩

/-- Settles O27. -/
theorem lzwStartInitialises : Obligations.LzwStartInitialises := by
  intro s hready hlegal
  have hbytes := byteAt_lzwInit (beginUnit .lzw s)
  exact ⟨_, exec_lzwStart_of_legal hready hlegal, rfl, fun a => (hbytes a).1, fun a => (hbytes a).2⟩

/-- Settles O28: the fault is raised with the unit already set. -/
theorem lzwStartChecksItsConfiguration : Obligations.LzwStartChecksItsConfiguration :=
  fun _ hready hlegal => exec_lzwStart_of_illegal hready hlegal

/-! ### The header (R162, R164) -/

theorem faulted_unit {s : State} {u : UnitSel} (hu : s.unit = u) (code : FaultCode) :
    faulted s u code = raise code s := by
  rw [← hu]
  rfl

/-- The unit that the header opens, for a legal data size (R164). -/
theorem lzwOpen_spec {ds : Nat} (hlo : 2 ≤ ds) (hhi : ds ≤ 8) (gen : Nat) (l : Lzw) :
    (lzwOpen ds gen l).dataSize.toNat = ds ∧ (lzwOpen ds gen l).codeSize.toNat = ds + 1 ∧
      (lzwOpen ds gen l).available.toNat = 2 ^ ds + 2 ∧ ∀ r, r < 2 ^ ds → (lzwOpen ds gen l).pfx.get r = 0 := by
  obtain ⟨hp4, hp256⟩ := two_pow_bounds_of_dataSize hlo hhi
  simp only [lzwOpen, BitVec.toNat_ofNat]
  refine ⟨by omega, by omega, by omega, fun r hr => ?_⟩
  simp [Table.get_put, hr]

/-- Settles O29, by what reading the header can do. -/
theorem lzwHeaderReadsTheDataSize : Obligations.LzwHeaderReadsTheDataSize := by
  intro s hb hu hm hd
  have hstep := step_of_fetchLzw_work hm hb hu (fetchLzw_of_pendingHeader hd)
  rcases lzwHeader_cases s with ⟨hused, heq⟩ | ⟨_, rfl, hlt, ⟨hillegal, heq⟩ | ⟨hlo, hhi, heq⟩⟩
  all_goals rw [heq] at hstep
  · refine ⟨fun _ => ?_, fun _ hlt => absurd hused (Nat.not_le.2 hlt)⟩
    rw [hstep, faulted_unit hu]
  · refine ⟨fun hused => absurd hused (Nat.not_le.2 hlt), ?_⟩
    rintro _ - rfl
    refine ⟨fun _ => ?_, fun hlo hhi => by omega⟩
    rw [hstep, faulted_unit (s := { s with inPos := s.inPos + 1 }) hu]
  · refine ⟨fun hused => absurd hused (Nat.not_le.2 hlt), ?_⟩
    rintro _ - rfl
    refine ⟨fun hillegal => by omega, fun _ _ => ?_⟩
    obtain ⟨hdataSize, hcodeSize, havailable, hpfx⟩ := lzwOpen_spec hlo hhi s.free s.lzw
    exact ⟨_, hstep, lzwOpen_good _ _ _ hlo hhi, hdataSize, hcodeSize, havailable, rfl, rfl, rfl, rfl, rfl, rfl, hpfx⟩

/-! ### The sub-blocks (R165 to R167) -/

theorem openSubBlock_of_present {len : Nat} {s : State} (h : s.inPos.toNat + len ≤ s.inLen.toNat) :
    openSubBlock len s = .next { s with lzw := { s.lzw with count := BitVec.ofNat 8 len } } :=
  if_neg (Nat.not_lt.2 h)

theorem openSubBlock_of_cut {len : Nat} {s : State} (h : s.inLen.toNat < s.inPos.toNat + len) :
    openSubBlock len s = .next (raise .prematureEndOfStream s) := if_pos h

/-- A row's base byte and the low bits that the row leaves open make the length byte (30_encoding.md R88). -/
theorem toNat_add_setWidth {w : Nat} {base : Byte} (l : BitVec w) (h : base.toNat + 2 ^ w ≤ 2 ^ 8) :
    (base + l.setWidth 8).toNat = base.toNat + l.toNat := by
  have hl := l.isLt
  rw [BitVec.toNat_add, BitVec.toNat_setWidth, Nat.mod_eq_of_lt (a := l.toNat) (by omega)]
  omega

/-- Settles O37: the rows by the one meaning that they share, the absent byte by the pass of the loop that needs it. -/
theorem lengthBytesOpenABlock : Obligations.LengthBytesOpenABlock := by
  constructor
  · intro s i len hrow
    have hexec : exec i s = openSubBlock len.toNat s := by
      rcases hrow with h | ⟨l, rfl, rfl⟩ | ⟨l, rfl, rfl⟩ | ⟨l, rfl, rfl⟩ | ⟨l, rfl, rfl⟩ | ⟨l, rfl, rfl⟩ |
        ⟨l, rfl, rfl⟩ | ⟨l, rfl, rfl⟩
      · cases List.mem_singleton.1 h
        rfl
      all_goals
        rw [toNat_add_setWidth l (by decide)]
        rfl
    rw [hexec]
    refine ⟨fun hpresent => ?_, openSubBlock_of_cut⟩
    rw [openSubBlock_of_present hpresent, BitVec.ofNat_toNat, BitVec.setWidth_eq]
  · intro s hm hb hu hd hp ht hbits hused
    rw [step_of_fetchLzw_work hm hb hu (fetchLzw_of_exhausted hd hp ht hbits hused), faulted_unit hu]

/-- Settles O36. -/
theorem terminatorEndsTheDecode : Obligations.TerminatorEndsTheDecode := fun _ => rfl

end Sys2Proof.Machine

/-! ### The codes that push nothing (R170, R171, R175) -/

namespace Sys2Proof.Machine

theorem Lzw.Good.clearCode_le {l : Lzw} (h : l.Good) : l.clearCode.toNat ≤ 256 := by
  obtain ⟨hlo, hhi⟩ := h.dataSize
  rw [h.clearCode]
  exact (two_pow_bounds_of_dataSize hlo hhi).2

/-- Settles O30: neither sum leaves its width. -/
theorem clearResetsTheDictionary : Obligations.ClearResetsTheDictionary := by
  intro s code hgood
  have hdataSize := hgood.dataSize.2
  have hclearCode := hgood.clearCode_le
  refine ⟨_, rfl, rfl, ?_, ?_⟩
  · simp only [BitVec.toNat_add, BitVec.ofNat_eq_ofNat, BitVec.toNat_ofNat]
    omega
  · simp only [BitVec.toNat_add, BitVec.toNat_setWidth, BitVec.ofNat_eq_ofNat, BitVec.toNat_ofNat]
    omega

/-- Settles O31. -/
theorem endCodeEndsTheDecode : Obligations.EndCodeEndsTheDecode := fun _ _ => rfl

/-- Settles O32. -/
theorem badCodeFollowsThePolicy : Obligations.BadCodeFollowsThePolicy := by
  intro s code
  constructor
  all_goals
    intro hpolicy
    simp [exec, execLzwBad, hpolicy, raise, finish]

/-! ### The codes that push pixels (R168, R172 to R174) -/

theorem Lzw.push?_stackList {l m : Lzw} {v : Byte} (h : l.push? v = some m) : m.stackList = v :: l.stackList := by
  have hroom : l.top.toNat < Config.lzwStackEntries := by
    by_contra hfull
    simp [(l.push?_none v).2 (Nat.le_of_not_lt hfull)] at h
  obtain ⟨m', hm', -, -, hup⟩ := l.push?_spec v hroom
  obtain rfl := Option.some.inj (h.symm.trans hm')
  exact (congrArg List.reverse hup).trans List.reverse_concat

theorem Lzw.stackList_of_empty {l : Lzw} (ht : l.top = 0) : l.stackList = [] := by
  simp [Lzw.stackList, Table.prefixList, ht]

/-- Settles O33: the root's pixel is its code, which has at most 8 bits. -/
theorem firstCodePushesItsPixel : Obligations.FirstCodePushesItsPixel := by
  intro s code hgood ht hroot
  obtain ⟨m, hpush, hdict, htop⟩ := Lzw.push?_of_empty ht (s.lzw.sfx.get code.toNat)
  have hfirst : (code.setWidth 8).toNat = code.toNat := by
    have hclear := hgood.clearCode_le
    rw [BitVec.toNat_setWidth]
    omega
  have hpixel : s.lzw.sfx.get code.toNat = code.setWidth 8 :=
    BitVec.eq_of_toNat_eq ((hgood.roots _ hroot).trans hfirst.symm)
  have hone : m.top = 1 := BitVec.eq_of_toNat_eq htop
  refine ⟨{ m with oldCode := some code, first := code.setWidth 8 }, ?_, ?_, hfirst, ?_⟩
  · simp [exec, execLzwFirst, hpush]
  · rw [hdict, hone]
  · calc m.stackList = s.lzw.sfx.get code.toNat :: s.lzw.stackList := Lzw.push?_stackList hpush
      _ = [code.setWidth 8] := by rw [Lzw.stackList_of_empty ht, hpixel]

/-- The entry of a data code takes the free slot, and grows the width when it fills it (R168, R173). -/
theorem Lzw.addEntry_frame (l : Lzw) (old code : BitVec 12) :
    l.addEntry old code = { l with
      codeSize := (l.addEntry old code).codeSize
      available := l.available + 1
      oldCode := some code
      pfx := l.pfx.put l.available.toNat [old]
      sfx := l.sfx.put l.available.toNat [l.first] } := by
  rw [Lzw.addEntry_eq]
  rfl

theorem Lzw.addEntry_codeSize (l : Lzw) (old code : BitVec 12) (hcs : l.codeSize.toNat ≤ 12) :
    (l.addEntry old code).codeSize.toNat =
      if (l.available + 1).toNat = 2 ^ l.codeSize.toNat ∧ (l.available + 1).toNat < 4096 then l.codeSize.toNat + 1
      else l.codeSize.toNat := by
  have hsucc : (l.codeSize + 1).toNat = l.codeSize.toNat + 1 := by
    simp only [BitVec.toNat_add, BitVec.ofNat_eq_ofNat, BitVec.toNat_ofNat]
    omega
  rw [Lzw.addEntry_eq, (l.withEntry old).grow_spec.2, apply_ite BitVec.toNat]
  exact congrArg (ite _ · _) hsucc

theorem Lzw.addEntry_stackList (l : Lzw) (old code : BitVec 12) : (l.addEntry old code).stackList = l.stackList := by
  rw [Lzw.addEntry_frame]
  rfl

/-- With room in the table the last push of a data code is its first pixel (R173). -/
theorem decodeStep_head {s : State} {code : BitVec 12} {l : Lzw} (hroom : s.lzw.available.toNat < 4096)
    (h : decodeStep code s = .next { s with lzw := l }) : l.stackList.head? = some l.first := by
  unfold decodeStep at h
  split at h
  · cases h
  next old hold =>
  split at h
  · cases h
  next root m hwalk =>
  obtain ⟨⟨start, k⟩, hstart, hpre⟩ := Option.bind_eq_some_iff.1 hwalk
  have hdict : s.lzw.SameDict m := (Lzw.walkStart?_sameDict hstart).trans (walkPrefix_sameDict hpre)
  dsimp only at h
  rw [if_neg (by rw [hdict.available]; exact Nat.not_le.2 hroom)] at h
  split at h
  · cases h
  next j hpush =>
  obtain rfl : j.addEntry old code = l := congrArg State.lzw (Host.Outcome.next.inj h)
  rw [Lzw.addEntry_stackList, Lzw.addEntry_frame, Lzw.push?_stackList hpush, (Lzw.push?_some hpush).1.first]
  rfl

/-- The three data classes: each is an entry of the dictionary or the one being built, and means `decodeStep`. -/
theorem exec_dataCode {s : State} (hgood : s.lzw.Good) {code : BitVec 12} {i : Instr}
    (h : (i = .lzwLit code ∧ code.toNat < s.lzw.clearCode.toNat) ∨
      (i = .lzwDict code ∧ s.lzw.clearCode.toNat + 2 ≤ code.toNat ∧ code.toNat < s.lzw.available.toNat) ∨
      (i = .lzwKwkwk code ∧ code.toNat = s.lzw.available.toNat)) :
    exec i s = decodeStep code s ∧
      (s.lzw.entryBelow s.lzw.available.toNat code ∨ code.toNat = s.lzw.available.toNat) := by
  have hfree := hgood.available.1
  rcases h with ⟨rfl, hlit⟩ | ⟨rfl, hlo, hhi⟩ | ⟨rfl, hnext⟩
  · exact ⟨rfl, .inl ⟨by omega, .inl hlit⟩⟩
  · exact ⟨rfl, .inl ⟨hhi, .inr hlo⟩⟩
  · exact ⟨rfl, .inr hnext⟩

/-- Settles O34, from the walk of a data code and from what its entry changes. -/
theorem dataCodesPushTheirPixels : Obligations.DataCodesPushTheirPixels := by
  intro s old code hgood ht hold hroom i hi
  obtain ⟨hexec, hentry⟩ := exec_dataCode hgood hi
  obtain ⟨root, m, hstep, -, hm, hstack⟩ := decodeStep_next s old code hold hgood.entries hroom (hgood.oldCode old hold)
    (Lzw.toNat_top_of_empty ht) hentry
  have hhead := decodeStep_head hroom hstep
  have hcodeSize := m.addEntry_codeSize old code (by rw [hm]; exact hgood.codeSize.2)
  refine ⟨m.addEntry old code, hexec.trans hstep, ?frame, (m.addEntry_stackList old code).trans hstack, hhead, ?pfx, ?sfx,
    fun j hj => ⟨?otherPfx, ?otherSfx⟩, ?codeSize⟩
  all_goals rw [Lzw.addEntry_frame, hm]
  case pfx => exact Table.get_put_one ..
  case sfx => exact Table.get_put_one ..
  case otherPfx => exact Table.get_put_ne _ _ _ _ hj
  case otherSfx => exact Table.get_put_ne _ _ _ _ hj
  case codeSize =>
    rw [hm] at hcodeSize
    exact hcodeSize

/-- Settles O35. -/
theorem fullTableEndsTheDecode : Obligations.FullTableEndsTheDecode := by
  intro s old code hgood ht hold hfull i hi
  have hlt : code.toNat < s.lzw.available.toNat := hfull ▸ code.isLt
  obtain ⟨hexec, hentry⟩ := exec_dataCode hgood (hi.imp_right fun ⟨hdict, hlo⟩ => .inl ⟨hdict, hlo, hlt⟩)
  obtain ⟨l, hstep, hl⟩ := decodeStep_full s old code hold hgood.entries hfull (hgood.oldCode old hold)
    (Lzw.toNat_top_of_empty ht) (hentry.resolve_right hlt.ne)
  exact ⟨l, hexec.trans hstep, hl⟩

end Sys2Proof.Machine

/-! ### Popping and placing a pixel (R178, R179) -/

namespace Sys2Proof.Machine

theorem mem_gifRows {h start step r : Nat} (hstep : 0 < step) :
    r ∈ gifRows h start step ↔ r < h ∧ start ≤ r ∧ r % step = start % step := by
  simp only [gifRows, List.mem_map, List.mem_range]
  constructor
  · rintro ⟨i, hi, rfl⟩
    exact ⟨add_mul_lt_of_lt_ceilDiv hstep hi, Nat.le_add_right _ _, Nat.add_mul_mod_self_left _ _ _⟩
  · rintro ⟨hlt, hle, hmod⟩
    obtain ⟨i, hi⟩ := (Nat.modEq_iff_dvd' hle).1 hmod.symm
    refine ⟨i, ?_, by omega⟩
    rw [ceilDiv, Nat.lt_div_iff_mul_lt hstep, Nat.mul_comm]
    omega

theorem gifRows_nodup {step : Nat} (h start : Nat) (hstep : 0 < step) : (gifRows h start step).Nodup :=
  List.nodup_range.map fun _ _ heq => Nat.eq_of_mul_eq_mul_left hstep (Nat.add_left_cancel heq)

/-- The rows of the four passes: the multiples of 8, the other multiples of 4, the other even rows, and the odd ones. -/
theorem mem_gifOrder_iff (h r : Nat) : r ∈ gifOrder h ↔
    r < h ∧ r % 8 = 0 ∨ r < h ∧ 4 ≤ r ∧ r % 8 = 4 ∨ r < h ∧ 2 ≤ r ∧ r % 4 = 2 ∨ r < h ∧ 1 ≤ r ∧ r % 2 = 1 := by
  simp [gifOrder, mem_gifRows]

/-- No two of the passes share a row: their remainders differ. -/
theorem gifOrder_nodup (h : Nat) : (gifOrder h).Nodup := by
  have hby8 (start : Nat) : (gifRows h start 8).Nodup := gifRows_nodup h start (by decide)
  have hby4 : (gifRows h 2 4).Nodup := gifRows_nodup h 2 (by decide)
  have hby2 : (gifRows h 1 2).Nodup := gifRows_nodup h 1 (by decide)
  refine (((hby8 0).append (hby8 4) ?_).append hby4 ?_).append hby2 ?_
  all_goals
    intro r hr hr'
    simp (disch := decide) only [List.mem_append, mem_gifRows] at hr hr'
    omega

/-- Settles O40. -/
theorem gifOrderIsAPermutation : Obligations.GifOrderIsAPermutation := by
  intro h
  refine (List.perm_ext_iff_of_nodup (gifOrder_nodup h) List.nodup_range).2 fun r => ?_
  rw [mem_gifOrder_iff, List.mem_range]
  omega

/-- A legal image has at most 2^31 pixels, since each takes a bit of OUTBUF (00_scope.md R6). -/
theorem LzwLegal.pixels_le {s : State} (h : LzwLegal s) (hp : s.params.legal = true) :
    s.width.toNat * s.height.toNat ≤ 2 ^ 31 := by
  obtain ⟨-, ⟨-, hout⟩, -⟩ := (Params.legal_iff _).1 hp
  have hdepth : 1 ≤ s.inFmt.bitDepth.toNat := by
    have hmem := h.depth
    simp only [List.mem_cons, List.not_mem_nil, or_false] at hmem
    omega
  calc s.width.toNat * s.height.toNat
      ≤ s.width.toNat * 1 * s.inFmt.bitDepth.toNat * s.height.toNat := by
        rw [Nat.mul_one]
        exact Nat.mul_le_mul_right _ (Nat.le_mul_of_pos_right _ hdepth)
    _ ≤ 8 * strideOf s.width.toNat 1 s.inFmt.bitDepth.toNat * s.height.toNat :=
        Nat.mul_le_mul_right _ (le_mul_strideOf ..)
    _ ≤ 8 * 2 ^ 28 := by
        rw [Nat.mul_assoc]
        exact Nat.mul_le_mul_left _ (h.fits.trans hout)

/-- At the depths of an LZW decode a pixel lies in one byte (41_pixel_buffer.md R135). -/
theorem byteAt_setPixel_of_le_eight {s : State} (hdepth : s.outFmt.bpc.toNat ≤ 8) (x y c : Nat) (v : Byte) (a : Nat) :
    (setPixel s x y c v.toNat).byteAt a =
      if a = 0x20000000 + s.byteIdx x y c then
        if s.outFmt.bpc.toNat = 8 then v
        else s.byteAt (0x20000000 + s.byteIdx x y c) ||| BitVec.ofNat 8 (v.toNat <<< s.shiftOf x y c)
      else s.byteAt a := by
  rcases hdepth.lt_or_eq with h | h
  · rw [setPixel_of_lt_eight _ _ _ _ h, State.byteAt_poke_one, if_neg h.ne]
    rfl
  · rw [setPixel_of_eight _ _ _ _ h, State.byteAt_poke_one, if_pos h, BitVec.ofNat_toNat, BitVec.setWidth_eq]
    rfl

/-- What a pop writes: the pixel that was on top, at the column and row that PIXCNT gives. -/
theorem byteAt_popPixel {s : State} (ht : s.lzw.top ≠ 0) {x y : Nat}
    (hx : x = s.pixCnt.toNat % s.width.toNat)
    (hy : y = gifRow s.inFmt.interlace s.height.toNat (s.pixCnt.toNat / s.width.toNat)) (a : Nat) :
    (popPixel s).byteAt a = (setPixel s x y 0 (s.lzw.stack.get (popPixel s).lzw.top.toNat).toNat).byteAt a := by
  have hlast : (s.lzw.top - 1).toNat = s.lzw.top.toNat - 1 := by bv_omega
  subst hx hy
  rw [show (popPixel s).lzw.top = s.lzw.top - 1 from rfl, hlast]
  exact State.byteAt_congr rfl rfl a

/-- The depths of an LZW decode (R161, R163). -/
theorem LzwRun.bpc_le {s : State} (r : LzwRun s) : s.outFmt.bpc.toNat ≤ 8 := by
  have hmem := r.check.depth
  simp only [List.mem_cons, List.not_mem_nil, or_false] at hmem
  rw [r.fmt]
  dsimp only
  omega

/-- Settles O39. -/
theorem popPlacesOnePixel : Obligations.PopPlacesOnePixel := by
  intro s h hb hu hm hd ht hp
  have r := h.lzw hb hu
  have hpixels := r.check.pixels_le h.params
  have htop : (s.lzw.top - 1).toNat + 1 = s.lzw.top.toNat := by bv_omega
  have hcount : (s.pixCnt + 1).toNat = s.pixCnt.toNat + 1 := by bv_omega
  refine ⟨popPixel s, step_of_fetchLzw_work hm hb hu (fetchLzw_of_pixel hd hp ht), popPixel_eq s, hcount, htop, ?_⟩
  rintro x y _ hx hy rfl
  have hbyte (a : Nat) := (byteAt_popPixel ht hx hy a).trans (byteAt_setPixel_of_le_eight r.bpc_le ..)
  exact ⟨(hbyte _).trans (if_pos rfl), fun a ha => (hbyte a).trans (if_neg ha)⟩

end Sys2Proof.Machine

/-! ### The end by the pixel count (R176, 60_exceptions.md R271) -/

namespace Sys2Proof.Machine

/-- A decode that has ended has the end reason PIXELS_DONE exactly when every pixel is placed. -/
def EndsByCount (t : State) : Prop :=
  t.engine = .done → (t.endReason = .pixelsDone ↔ t.pixCnt.toNat = t.width.toNat * t.height.toNat)

theorem EndsByCount.of_not_done {t : State} (h : t.engine ≠ .done) : EndsByCount t := fun hdone => absurd hdone h

/-- Another end comes with pixels left. -/
theorem EndsByCount.of_left {t : State} (hleft : t.pixCnt.toNat < t.width.toNat * t.height.toNat)
    (hreason : t.endReason ≠ .pixelsDone) : EndsByCount t :=
  fun _ => iff_of_false hreason hleft.ne

section
variable {s t : State} (hleft : s.pixCnt.toNat < s.width.toNat * s.height.toNat)
include hleft

theorem execLzwBad_endsByCount (code : BitVec 12) (h : execLzwBad code s = .next t) : EndsByCount t := by
  unfold execLzwBad at h
  split at h
  all_goals cases h
  · exact .of_not_done (by simp)
  · exact .of_left hleft (by simp)

variable (hreason : s.endReason ≠ .pixelsDone)
include hreason

theorem exec_decodeLen_endsByCount {b : Byte} (h : exec (decodeLen b) s = .next t) : EndsByCount t := by
  rcases exec_decodeLen_cases b s with heq | ⟨len, heq⟩ <;> rw [heq] at h
  · cases h
    exact .of_left hleft (by simp)
  · rcases openSubBlock_cases len s t h with ⟨-, rfl⟩ | ⟨-, rfl⟩
    · exact .of_left hleft hreason
    · exact .of_not_done (by simp)

theorem execLzwFirst_endsByCount (code : BitVec 12) (h : execLzwFirst code s = .next t) : EndsByCount t := by
  unfold execLzwFirst at h
  split at h
  all_goals cases h
  exact .of_left hleft hreason

theorem decodeStep_endsByCount {code : BitVec 12} (h : decodeStep code s = .next t) : EndsByCount t := by
  rcases decodeStep_cases h with ⟨_, rfl⟩ | ⟨_, _, _, -, -, -, -, rfl⟩
  · exact .of_left hleft (by simp)
  · exact .of_left hleft hreason

/-- A code places no pixel, and ends a decode for another reason than the count. -/
theorem exec_decodeCode_endsByCount {c : LzwCtx} {code : BitVec 12} (h : exec (decodeCode c code) s = .next t) :
    EndsByCount t := by
  unfold decodeCode at h
  split_ifs at h
  · cases h
    exact .of_left hleft hreason
  · cases h
    exact .of_left hleft (by simp)
  · exact execLzwBad_endsByCount hleft code h
  · exact execLzwFirst_endsByCount hleft hreason code h
  all_goals exact decodeStep_endsByCount hleft hreason h

end

/-- What a step finds to do ends a decode by the count alone; a word that it reads decodes in context `c`. -/
def Fetched.EndsByCount (c : LzwCtx) : Fetched → Prop
  | .word e s => ∀ t, exec (decode c e) s = .next t → Machine.EndsByCount t
  | .work s => Machine.EndsByCount s
  | .wait => True
  | .stuck _ => True

theorem lzwHeader_endsByCount {s : State} (hb : s.engine = .busy) : EndsByCount (lzwHeader s) := by
  rcases lzwHeader_cases s with ⟨-, h⟩ | ⟨ds, -, -, ⟨-, h⟩ | ⟨-, -, h⟩⟩ <;> rw [h] <;> exact .of_not_done (by simp [hb])

theorem fetchLzw_endsByCount {s : State} (r : LzwRun s) (hb : s.engine = .busy) (hreason : s.endReason ≠ .pixelsDone) :
    (fetchLzw s).EndsByCount s.lzw.ctx := by
  refine fetchLzw_cases (P := (·.EndsByCount s.lzw.ctx)) ?header ?allPlaced ?pixel ?exhausted ?length ?data ?code
  case header => exact fun _ => lzwHeader_endsByCount hb
  case allPlaced => exact fun _ hall _ => iff_of_true rfl (r.pix.antisymm hall)
  case pixel => exact fun _ _ => .of_not_done (by rw [popPixel_eq]; simp [hb])
  case exhausted => exact fun _ _ => .of_not_done (by simp)
  case length => exact fun _ hleft _ => exec_decodeLen_endsByCount (s := { s with inPos := s.inPos + 1 }) hleft hreason
  case data => exact fun _ _ => .of_not_done (by simp [hb])
  case code =>
    exact fun _ hleft _ _ _ => exec_decodeCode_endsByCount (s := { s with lzw := s.lzw.dropCode }) hleft hreason

/-- Settles O41: PIXCNT never passes W * H, so the end by the count finds it equal, and any other end finds it below. -/
theorem pixelCountEndsTheDecode : Obligations.PixelCountEndsTheDecode := by
  constructor
  · intro s hb hu hm hd hall
    exact step_of_fetchLzw_work hm hb hu (fetchLzw_of_allPlaced hd hall.ge)
  · intro s t h hb hu hm hstep
    have hreason : s.endReason ≠ .pixelsDone := by simp [h.status.endReason_eq (by simp [hb])]
    have hf : (fetch s).EndsByCount s.lzw.ctx := by
      rw [fetch_of_lzw hm hb hu]
      exact fetchLzw_endsByCount (h.lzw hb hu) hb hreason
    rcases step_cases s t hstep with ⟨e, s1, u, hw, he, rfl⟩ | ⟨u, hw, rfl⟩ | ⟨-, rfl⟩
    · rw [hw] at hf
      exact hf u he
    · rw [hw] at hf
      exact hf
    · exact EndsByCount.of_not_done (by simp [hb])

end Sys2Proof.Machine

/-! ## The PNG unit (43_png_unfilter.md) -/

/-! ### The predictors and the reconstruction of a row (R216 to R225, R236) -/

namespace Sys2Proof.Machine

/-- Settles O49: the three branches of `paeth`. -/
theorem paethPicksTheClosest : Obligations.PaethPicksTheClosest := by
  intro a b c
  refine ⟨_, rfl, ?_⟩
  unfold paeth
  dsimp only
  split_ifs with ha hb
  · exact .inl ⟨rfl, ha⟩
  · exact .inr (.inl ⟨rfl, ha, hb⟩)
  · exact .inr (.inr ⟨rfl, ha, hb⟩)

/-- Mod 256 the sum undoes the difference. -/
theorem ofNat_ofInt_sub_add (x : Byte) (p : Nat) :
    BitVec.ofNat 8 ((BitVec.ofInt 8 ((x.toNat : Int) - p)).toNat + p) = x := by
  have hx := x.isLt
  apply BitVec.eq_of_toNat_eq
  rw [BitVec.toNat_ofNat, BitVec.toNat_ofInt]
  omega

/-- Both directions predict from the bytes of the row itself, so each byte comes back with those before it. -/
theorem unfilterFrom_filterForwardFrom (pred : Predictor) (bpp : Nat) (prior : List Byte) :
    ∀ row before : List Byte,
      unfilterFrom pred bpp prior before (filterForwardFrom pred bpp prior before row) = before ++ row
  | [], before => (List.append_nil before).symm
  | x :: row, before => by
    rw [filterForwardFrom, unfilterFrom, ofNat_ofInt_sub_add, unfilterFrom_filterForwardFrom, List.append_assoc]
    rfl

/-- Settles O50. -/
theorem unfilterInvertsTheFilter : Obligations.UnfilterInvertsTheFilter :=
  fun pred bpp prior row => unfilterFrom_filterForwardFrom pred bpp prior row []

/-! ### The passes of Adam7 (R215, R229, R234) -/

/-- The numbers that a pass reaches along one axis are those with its offset as their remainder. -/
theorem lt_ceilDiv_and_eq_iff {n off st z i : Nat} (hz : z < n) (hoff : off < st) :
    i < ceilDiv (n - off) st ∧ z = off + st * i ↔ z % st = off ∧ i = z / st := by
  have hst : 0 < st := Nat.zero_lt_of_lt hoff
  rw [ceilDiv, Nat.lt_div_iff_mul_lt hst]
  constructor
  · rintro ⟨-, rfl⟩
    rw [Nat.add_mul_mod_self_left, Nat.mod_eq_of_lt hoff, Nat.add_mul_div_left _ _ hst, Nat.div_eq_of_lt hoff,
      Nat.zero_add]
    exact ⟨rfl, rfl⟩
  · rintro ⟨hmod, rfl⟩
    have hdiv := Nat.mod_add_div z st
    rw [Nat.mul_comm (z / st)]
    omega

/-- The offsets of a pass are below its steps. -/
theorem passGeom_offsets_lt (p : Nat) :
    (passGeom true p).xOff < (passGeom true p).xStep ∧ (passGeom true p).yOff < (passGeom true p).yStep := by
  unfold passGeom
  split_ifs <;> decide

/-- The pass whose turn a pixel is, by the remainders of its coordinates. -/
def passAt (x y : Nat) : Nat :=
  if x % 8 = 0 ∧ y % 8 = 0 then 1
  else if x % 8 = 4 ∧ y % 8 = 0 then 2
  else if x % 4 = 0 ∧ y % 8 = 4 then 3
  else if x % 4 = 2 ∧ y % 4 = 0 then 4
  else if x % 2 = 0 ∧ y % 4 = 2 then 5
  else if x % 2 = 1 ∧ y % 2 = 0 then 6
  else 7

theorem passAt_bounds (x y : Nat) : 1 ≤ passAt x y ∧ passAt x y ≤ 7 := by
  unfold passAt
  split_ifs <;> decide

/-- The remainders of a pixel's coordinates are the offsets of one pass. -/
theorem mod_steps_eq_offsets_iff {p : Nat} (x y : Nat) (hlo : 1 ≤ p) (hhi : p ≤ 7) :
    x % (passGeom true p).xStep = (passGeom true p).xOff ∧ y % (passGeom true p).yStep = (passGeom true p).yOff ↔
      p = passAt x y := by
  unfold passAt
  interval_cases p
  all_goals
    simp only [passGeom, Bool.not_true, Bool.false_eq_true, ↓reduceIte, OfNat.ofNat_ne_one, Nat.reduceEqDiff]
    split_ifs <;> omega

/-- A pixel of the image is the pixel `(sx, sy)` of pass `p` exactly for one `p`, `sx` and `sy`. -/
theorem passPixel_iff {w h x y p sx sy : Nat} (hx : x < w) (hy : y < h) (hlo : 1 ≤ p) (hhi : p ≤ 7) :
    ((sx < passWidthOf true w p ∧ x = (passGeom true p).xOff + (passGeom true p).xStep * sx) ∧
      sy < passHeightOf true h p ∧ y = (passGeom true p).yOff + (passGeom true p).yStep * sy) ↔
      p = passAt x y ∧ sx = x / (passGeom true p).xStep ∧ sy = y / (passGeom true p).yStep := by
  obtain ⟨hxoff, hyoff⟩ := passGeom_offsets_lt p
  unfold passWidthOf passHeightOf
  rw [lt_ceilDiv_and_eq_iff hx hxoff, lt_ceilDiv_and_eq_iff hy hyoff, ← mod_steps_eq_offsets_iff x y hlo hhi]
  tauto

/-- Settles O48. -/
theorem adam7CoversEveryPixelOnce : Obligations.Adam7CoversEveryPixelOnce := by
  intro w h x y hx hy
  obtain ⟨hlo, hhi⟩ := passAt_bounds x y
  obtain ⟨⟨hsx, hxeq⟩, hsy, hyeq⟩ := (passPixel_iff hx hy hlo hhi).2 ⟨rfl, rfl, rfl⟩
  refine ⟨_, _, _, ⟨hlo, hhi, hsx, hsy, hxeq, hyeq⟩, fun p' sx' sy' hlo' hhi' hsx' hsy' hx' hy' => ?_⟩
  obtain ⟨rfl, hsx', hsy'⟩ := (passPixel_iff hx hy hlo' hhi').1 ⟨⟨hsx', hx'⟩, hsy', hy'⟩
  exact ⟨rfl, hsx', hsy'⟩

end Sys2Proof.Machine

/-! ### The filter bytes (R212, R216 to R220, R222) -/

namespace Sys2Proof.Machine

/-- The five filters are one meaning with five predictors (R216 to R220). -/
theorem exists_exec_filter {i : Instr} (hi : i ∈ [Instr.filterNone, .filterSub, .filterUp, .filterAvg, .filterPaeth])
    (s : State) : ∃ pred, exec i s = filterRow pred s := by
  simp only [List.mem_cons, List.not_mem_nil, or_false] at hi
  rcases hi with rfl | rfl | rfl | rfl | rfl
  all_goals exact ⟨_, rfl⟩

theorem filterRow_of_short {pred : Predictor} {s : State} (h : s.inLen.toNat < s.inPos.toNat + s.png.rowBytes.toNat) :
    filterRow pred s = .next (raise .prematureEndOfStream s) := if_pos h

/-- With no filter byte left the PNG unit faults (42_lzw.md R162). -/
theorem fetchPng_of_exhausted {s : State} (h : s.inLen.toNat ≤ s.inPos.toNat) :
    fetchPng s = .work (raise .prematureEndOfStream s) := by
  simp only [fetchPng, (readByte?_none s).2 h]

/-- Settles O51. -/
theorem shortRowFaults : Obligations.ShortRowFaults := by
  constructor
  · intro s i hi hshort
    obtain ⟨pred, hexec⟩ := exists_exec_filter hi s
    rw [hexec, filterRow_of_short hshort]
    rfl
  · intro s hm hb hu hend
    rw [faulted_unit hu]
    exact step_of_work ((fetch_of_png hm hb hu).trans (fetchPng_of_exhausted hend))

/-- Settles O52: each of the seven rows has the one meaning. -/
theorem reservedFiltersFault : Obligations.ReservedFiltersFault := by
  rintro s i (rfl | ⟨_, rfl⟩ | ⟨_, rfl⟩ | ⟨_, rfl⟩ | ⟨_, rfl⟩ | ⟨_, rfl⟩ | ⟨_, rfl⟩)
  all_goals rfl

end Sys2Proof.Machine

/-! ### From row to row (R215, R223, R226, R227, R233) -/

namespace Sys2Proof.Machine

/-- After a row there is a next one in its pass, or a next pass that is not empty, or the decode ends. -/
theorem advanceRow_cases (s : State) :
    (s.png.srcY.toNat + 1 < s.png.passHeight.toNat ∧
        advanceRow s = { s with png := { s.png with srcY := s.png.srcY + 1 } }) ∨
      (s.png.passHeight.toNat ≤ s.png.srcY.toNat + 1 ∧
        ∃ p, findPass s.inFmt.interlace s.width.toNat s.height.toNat 7 (s.png.pass.toNat + 1) = some p ∧
          advanceRow s = beginPass p s) ∨
      (s.png.passHeight.toNat ≤ s.png.srcY.toNat + 1 ∧
        findPass s.inFmt.interlace s.width.toNat s.height.toNat 7 (s.png.pass.toNat + 1) = none ∧
          advanceRow s = finish .rowsDone s) := by
  rcases Nat.lt_or_ge (s.png.srcY.toNat + 1) s.png.passHeight.toNat with hlt | hlast
  · exact .inl ⟨hlt, if_pos hlt⟩
  · rw [advanceRow, if_neg (Nat.not_lt.2 hlast)]
    rcases enterPass_cases (s.png.pass.toNat + 1) s with hpass | hended
    · exact .inr (.inl ⟨hlast, hpass⟩)
    · exact .inr (.inr ⟨hlast, hended⟩)

/-- The bytes of the current row stay as they are. -/
@[simp] theorem advanceRow_curr (s : State) : (advanceRow s).png.curr = s.png.curr := by
  rcases advanceRow_cases s with ⟨-, h⟩ | ⟨-, p, -, h⟩ | ⟨-, -, h⟩ <;> rw [h] <;> rfl

/-- The pixels of the last row of a pass are the last of those before the next pass. -/
theorem PngPass.placedAt_succ_of_last {s : State} (h : PngPass s)
    (hlast : s.png.passHeight.toNat ≤ s.png.srcY.toNat + 1) : s.placedAt (s.png.srcY.toNat + 1) =
      placedBefore s.inFmt.interlace s.width.toNat s.height.toNat (s.png.pass.toNat + 1) := by
  have hrows : s.png.srcY.toNat + 1 = s.png.passHeight.toNat := Nat.le_antisymm h.srcY hlast
  rw [placedBefore_succ _ _ _ h.pass.1, State.placedAt, hrows, h.passWidth, h.passHeight, Nat.mul_comm]

/-- The state in which a decode goes on after a row: the row is read, reconstructed, placed, counted and kept as the
prior row (R212, R223). -/
def State.afterRow (s : State) (pred : Predictor) : State :=
  { s with
    inPos := s.inPos + s.png.rowBytes
    pixCnt := s.pixCnt + s.png.passWidth
    mem := (placeRow (scanline pred s) (s.withRow pred)).mem
    png := { s.png with
      curr := s.png.curr.put 0 (scanline pred s)
      prior := s.png.prior.put 0 (scanline pred s) } }

section
variable {s : State}

theorem filterRow_eq_advanceRow (h : s.inPos.toNat + s.png.rowBytes.toNat ≤ s.inLen.toNat) (pred : Predictor) :
    filterRow pred s = .next (advanceRow (s.afterRow pred)) := filterRow_of_present h

theorem exists_exec_filter_eq_advanceRow {i : Instr}
    (hi : i ∈ [Instr.filterNone, .filterSub, .filterUp, .filterAvg, .filterPaeth])
    (h : s.inPos.toNat + s.png.rowBytes.toNat ≤ s.inLen.toNat) :
    ∃ pred, exec i s = .next (advanceRow (s.afterRow pred)) := by
  obtain ⟨pred, hexec⟩ := exists_exec_filter hi s
  exact ⟨pred, hexec.trans (filterRow_eq_advanceRow h pred)⟩

theorem afterRow_inPos (h : s.inPos.toNat + s.png.rowBytes.toNat ≤ s.inLen.toNat) (pred : Predictor) :
    (s.afterRow pred).inPos.toNat = s.inPos.toNat + s.png.rowBytes.toNat := by
  have hlen := s.inLen.isLt
  exact BitVec.toNat_add_of_lt (by omega)

variable (r : PngRun s) (hp : s.params.legal = true)
include r

theorem PngRun.placedAt_succ : s.placedAt (s.png.srcY.toNat + 1) = s.pixCnt.toNat + s.png.passWidth.toNat := by
  rw [r.pix, State.placedAt, Nat.succ_mul, Nat.add_assoc]

include hp in
/-- The count of a row's pixels does not overflow, since the image has at most 2^31. -/
theorem afterRow_pixCnt (pred : Predictor) :
    (s.afterRow pred).pixCnt.toNat = s.pixCnt.toNat + s.png.passWidth.toNat := by
  have hmax := (r.inPass.placedAt_le r.srcY).trans (r.check.pixels_le hp)
  rw [r.placedAt_succ] at hmax
  exact BitVec.toNat_add_of_lt (by omega)

theorem afterRow_inPass (pred : Predictor) : PngPass (s.afterRow pred) := { r.inPass with }

theorem afterRow_setup (h : s.inPos.toNat + s.png.rowBytes.toNat ≤ s.inLen.toNat) (pred : Predictor) :
    PngSetup (s.afterRow pred) :=
  { r.setup with check := { r.check with }, pos := (afterRow_inPos h pred).trans_le h }

end

/-! ### The end of a decode (R233, R234) -/

/-- If a decode of the image of `s` has ended in `t`, it has placed every pixel. -/
def EndsPlaced (s t : State) : Prop :=
  t.engine = .done → t.endReason = .rowsDone ∧ t.pixCnt.toNat = s.width.toNat * s.height.toNat

theorem EndsPlaced.of_not_done {s t : State} (h : t.engine ≠ .done) : EndsPlaced s t := fun hdone => absurd hdone h

/-- A meaning that ends the decode of the image of `s` ends it with every pixel placed. -/
def EndsOnlyPlaced (s : State) (res : Result) : Prop := ∀ t, res = .next t → EndsPlaced s t

theorem EndsOnlyPlaced.next {s t : State} (h : EndsPlaced s t) : EndsOnlyPlaced s (.next t) := by
  rintro _ ⟨⟩
  exact h

/-- When no pass is left after some, those before hold every pixel. -/
theorem placedBefore_of_findPass_none {il : Bool} {w h pass : Nat} (hone : 1 ≤ pass) (hle : pass ≤ lastPass il + 1)
    (hfind : findPass il w h 7 pass = none) : placedBefore il w h pass = w * h := by
  have hseven := lastPass_le il
  have hempty := findPass_none il w h 7 pass hfind (by omega)
  rw [← placedBefore_all il w h,
    placedBefore_of_empty il w h hone hle fun q h1 h2 => hempty q h1 (Nat.le_of_lt_succ h2)]

/-- Going on after a row ends a decode only with every pixel counted. -/
theorem advanceRow_endsPlaced {s : State} (hpass : PngPass s) (hb : s.engine = .busy)
    (hpix : s.pixCnt.toNat = s.placedAt (s.png.srcY.toNat + 1)) : EndsPlaced s (advanceRow s) := by
  rcases advanceRow_cases s with ⟨-, h⟩ | ⟨-, p, -, h⟩ | ⟨hlast, hfind, h⟩ <;> rw [h]
  · exact .of_not_done (by simp [hb])
  · exact .of_not_done (by simp [beginPass, hb])
  · refine fun _ => ⟨rfl, ?_⟩
    rw [finish_pixCnt, hpix, hpass.placedAt_succ_of_last hlast,
      placedBefore_of_findPass_none (Nat.le_add_left ..) (Nat.succ_le_succ hpass.pass.2) hfind]

section
variable {s : State} (hb : s.engine = .busy)
include hb

section
variable (r : PngRun s) (hp : s.params.legal = true)
include r hp

theorem filterRow_endsOnlyPlaced (pred : Predictor) : EndsOnlyPlaced s (filterRow pred s) := by
  rcases Nat.lt_or_ge s.inLen.toNat (s.inPos.toNat + s.png.rowBytes.toNat) with hshort | hpresent
  · rw [filterRow_of_short hshort]
    exact .next (.of_not_done (by simp))
  · rw [filterRow_eq_advanceRow hpresent]
    have hpix := (afterRow_pixCnt r hp pred).trans r.placedAt_succ.symm
    exact .next (advanceRow_endsPlaced (afterRow_inPass r pred) hb hpix)

theorem exec_decodeFilter_endsOnlyPlaced (b : Byte) : EndsOnlyPlaced s (exec (decodeFilter b) s) :=
  exec_decodeFilter_cases (filterRow_endsOnlyPlaced hb r hp) (.next (.of_not_done (by simp))) b

end

/-- The commands that start something are refused while a unit runs. -/
theorem AcceptedIf.endsOnlyPlaced {i : Instr} (h : AcceptedIf s.acceptsWork i s) : EndsOnlyPlaced s (exec i s) := by
  rw [h.refused (acceptsWork_of_busy hb)]
  exact .next (.of_not_done (by simp [hb]))

/-- No command ends a decode: RESET and ABORT stop it, and the others leave it running (40_control.md R110). -/
theorem exec_decodeCmd_endsOnlyPlaced (w : Word) : EndsOnlyPlaced s (exec (decodeCmd w) s) := by
  have hrunning {t : State} (ht : t.engine = .busy) : EndsOnlyPlaced s (.next t) := .next (.of_not_done (by simp [ht]))
  unfold decodeCmd
  iterate 29 refine exec_ite (P := EndsOnlyPlaced s) (hrunning (t := refuse s) hb) ?_
  refine exec_ite (P := EndsOnlyPlaced s) (hrunning (t := s) hb) ?_
  refine exec_ite (P := EndsOnlyPlaced s) (.next (.of_not_done (by simp))) ?_
  refine exec_ite ?abort ?_
  case abort =>
    rw [exec_abort_of_busy hb]
    exact .next (.of_not_done (by simp))
  refine exec_ite ((pbClear_accepted s).endsOnlyPlaced hb) ?_
  refine exec_ite ((pbSet_accepted s).endsOnlyPlaced hb) ?_
  refine exec_ite ((pbGet_accepted s).endsOnlyPlaced hb) ?_
  exact exec_ite ((lzwStart_accepted s).endsOnlyPlaced hb) ((pngStart_accepted s).endsOnlyPlaced hb)

theorem busAccess_engine_of_busy (op : BusOp) : (busAccess op s).engine = .busy := by
  obtain ⟨r, t, heq, ht⟩ := busAccess_cases op s
  rw [heq, respond_engine, ← hb]
  rcases ht with rfl | ⟨-, rfl⟩ | ⟨offset, -, rfl⟩ | ⟨-, sp, i, -, rfl⟩
  · rfl
  · exact refuse_engine s
  · exact storeReg_engine ..
  · rfl

end

/-- What a step finds to do ends the decode of the image of `s` only with every pixel placed; a word that it reads
decodes in context `c`. -/
def Fetched.EndsPlaced (c : LzwCtx) (s : State) : Fetched → Prop
  | .word e u => EndsOnlyPlaced s (exec (decode c e) u)
  | .work u => Machine.EndsPlaced s u
  | .wait => True
  | .stuck _ => True

theorem fetchHost_endsPlaced {s : State} (hb : s.engine = .busy) (c : LzwCtx) : (fetchHost s).EndsPlaced c s := by
  unfold fetchHost
  split
  · trivial
  · exact .of_not_done (by simp [powerOnReset])
  · next op rest _ =>
    split
    · next w _ => exact exec_decodeCmd_endsOnlyPlaced (s := respond .ok { s with inbox := rest }) hb w
    · exact .of_not_done (by simp [busAccess_engine_of_busy (s := { s with inbox := rest }) hb op])

/-- A running unit that reads a byte still runs. -/
theorem PngRun.next_inPos {s : State} (r : PngRun s) (hlt : s.inPos.toNat < s.inLen.toNat) :
    PngRun { s with inPos := s.inPos + 1 } :=
  { r with check := { r.check with }, pos := by rw [succ_toNat_of_lt hlt]; exact hlt }

theorem fetchPng_endsPlaced {s : State} (hb : s.engine = .busy) (r : PngRun s) (hp : s.params.legal = true) :
    (fetchPng s).EndsPlaced s.lzw.ctx s := by
  rcases Nat.lt_or_ge s.inPos.toNat s.inLen.toNat with hlt | hend
  · rw [fetchPng_of_lt hlt]
    exact exec_decodeFilter_endsOnlyPlaced (s := { s with inPos := s.inPos + 1 }) hb (r.next_inPos hlt) hp _
  · rw [fetchPng_of_exhausted hend]
    exact EndsPlaced.of_not_done (by simp)

theorem fetch_endsPlaced {s : State} (h : Inv s) (hb : s.engine = .busy) (hu : s.unit = .png) :
    (fetch s).EndsPlaced s.lzw.ctx s := by
  cases hm : s.hostMoves with
  | true =>
    rw [fetch, if_pos hm]
    exact fetchHost_endsPlaced hb _
  | false =>
    rw [fetch_of_png hm hb hu]
    exact fetchPng_endsPlaced hb (h.png hb hu) h.params

/-- Settles O47: PIXCNT counts the rows of the passes before the current one and of its own, and the decode ends when no
pass is left. -/
theorem rowsDonePlacesEveryPixel : Obligations.RowsDonePlacesEveryPixel := by
  intro s t h hb hu hstep hdone _
  have hf := fetch_endsPlaced h hb hu
  rcases step_cases s t hstep with ⟨e, s1, u, hw, he, rfl⟩ | ⟨u, hw, rfl⟩ | ⟨-, rfl⟩
  · rw [hw] at hf
    exact hf u he hdone
  · rw [hw] at hf
    exact hf hdone
  · rw [hb] at hdone
    exact EngState.noConfusion hdone

end Sys2Proof.Machine

/-! ### The start of a decode (R210, R211, R213, R214) -/

namespace Sys2Proof.Machine

section
variable {s : State} (hready : s.engine = .idle ∨ s.engine = .done)
include hready

theorem exec_pngStart_of_legal (hlegal : PngLegal s (pngBands s.inFmt.colorType.toNat)) :
    exec .pngStart s = .next (enterPass 1 { pngInit (beginUnit .png s) with engine := .busy }) := by
  have haccepts := (acceptsWork_iff s).2 hready
  have hcheck := (State.pngCheck_iff s).2 hlegal
  simp [exec, execPngStart, haccepts, hcheck]

theorem exec_pngStart_of_illegal (hlegal : ¬ PngLegal s (pngBands s.inFmt.colorType.toNat)) :
    exec .pngStart s = .next (raise .unsupportedConfiguration (beginUnit .png s)) := by
  have haccepts := (acceptsWork_iff s).2 hready
  have hcheck : s.pngCheck = false := by rwa [← Bool.not_eq_true, State.pngCheck_iff]
  simp [exec, execPngStart, haccepts, hcheck]

end

/-- Settles O43: the fault is raised with the unit already set. -/
theorem pngStartChecksItsConfiguration : Obligations.PngStartChecksItsConfiguration :=
  fun _ hready hillegal => exec_pngStart_of_illegal hready (hillegal _)

/-- The first pass of an image with a pixel is not empty. -/
theorem findPass_first {il : Bool} {w h : Nat} (hw : 1 ≤ w) (hh : 1 ≤ h) : findPass il w h 7 1 = some 1 := by
  have hpos {n k : Nat} (hn : 1 ≤ n) (hk : 0 < k) : ceilDiv n k ≠ 0 := (Nat.div_pos (by omega) hk).ne'
  have hlast : ¬ lastPass il < 1 := by cases il <;> decide
  obtain ⟨hxst, hyst⟩ := passGeom_steps_pos il 1
  have hxoff : (passGeom il 1).xOff = 0 := by cases il <;> rfl
  have hyoff : (passGeom il 1).yOff = 0 := by cases il <;> rfl
  have hwidth : passWidthOf il w 1 ≠ 0 := by rw [passWidthOf, hxoff]; exact hpos hw hxst
  have hheight : passHeightOf il h 1 ≠ 0 := by rw [passHeightOf, hyoff]; exact hpos hh hyst
  simp [findPass, hlast, hwidth, hheight]

/-- A pass begins with a prior row of zeros (R224). -/
theorem beginPass_prior {p : Nat} {s : State} {k : Nat} (hk : k < (beginPass p s).png.rowBytes.toNat) :
    (beginPass p s).png.prior.get k = 0 := by
  have hlt := hk.trans_le (Nat.mod_le _ _)
  simp only [beginPass, Table.get_put, List.length_replicate]
  rw [if_pos ⟨Nat.zero_le k, by omega⟩]
  exact List.getD_replicate _ hlt

/-- The output format of a legal pair (R213). -/
theorem pngTable_outFmt_eq : ∀ e ∈ pngTable,
    (pngOutFmt e.1 e.2.1).bpc.toNat = (if e.2.1 = 16 then 8 else e.2.1) ∧
      (pngOutFmt e.1 e.2.1).ncomp.toNat = (if e.1 ∈ [4, 6] then e.2.2 - 1 else e.2.2) ∧
      (pngOutFmt e.1 e.2.1).mask = decide (e.1 ∈ [4, 6]) := by
  decide

/-- The used output regions filled with zeros. -/
def State.zeroUsed (s : State) : State :=
  if s.outFmt.mask then (s.zeroFill .outbuf s.usedOut).zeroFill .maskbuf s.usedMask else s.zeroFill .outbuf s.usedOut

section
variable (s : State) {a : Nat}

theorem byteAt_zeroUsed_of_out (h : InUsedOut s a) : s.zeroUsed.byteAt a = 0 := by
  have hout : (s.zeroFill .outbuf s.usedOut).byteAt a = 0 := (State.byteAt_zeroFill ..).trans (if_pos h)
  unfold State.zeroUsed
  split
  · rw [State.byteAt_zeroFill, hout, ite_self]
  · exact hout

theorem byteAt_zeroUsed_of_mask (h : InUsedMask s a) : s.zeroUsed.byteAt a = 0 := by
  rw [State.zeroUsed, if_pos h.1, State.byteAt_zeroFill]
  exact if_pos h.2

theorem zeroUsed_keepsUnused : KeepsUnused s s.zeroUsed := by
  intro a ho hm
  have hout : (s.zeroFill .outbuf s.usedOut).byteAt a = s.byteAt a := (State.byteAt_zeroFill ..).trans (if_neg ho)
  unfold State.zeroUsed
  split
  · next hmask =>
    rw [State.byteAt_zeroFill, hout]
    exact if_neg fun hin => hm ⟨hmask, hin⟩
  · exact hout

end

theorem zeroUsed_eq (s : State) : s.zeroUsed = { s with mem := s.zeroUsed.mem } := by
  unfold State.zeroUsed
  split <;> rfl

/-- The state with the output format of its PNG configuration (R213). -/
def State.withPngFmt (s : State) : State :=
  { s with outFmt := pngOutFmt s.inFmt.colorType.toNat s.inFmt.bitDepth.toNat }

/-- `pngInit` zeroes the used regions of the format that it sets, and writes no other byte (R213, R214). -/
theorem pngInit_mem (s : State) : (pngInit s).mem = s.withPngFmt.zeroUsed.mem := rfl

/-- What PNG_START leaves before the first pass begins (R213, R214). -/
def State.pngStarted (s : State) : State :=
  { s.withPngFmt.zeroUsed with
    engine := .busy
    unit := .png
    faultCode := .noFault
    endReason := .noReason
    inPos := 0
    pixCnt := 0
    png := { s.png with
      bands := BitVec.ofNat 3 (pngBands s.inFmt.colorType.toNat)
      alpha := pngAlpha s.inFmt.colorType.toNat
      bpp := BitVec.ofNat 4 (max 1 (pngBands s.inFmt.colorType.toNat * s.inFmt.bitDepth.toNat / 8)) } }

theorem pngInit_beginUnit (s : State) : { pngInit (beginUnit .png s) with engine := .busy } = s.pngStarted := by
  have hmem : (pngInit (beginUnit .png s)).mem = s.withPngFmt.zeroUsed.mem := by
    rw [pngInit_mem]
    simp only [State.zeroUsed, apply_ite State.mem]
    rfl
  rw [State.pngStarted, zeroUsed_eq, pngInit_eq, hmem]
  rfl

theorem pngStarted_eq (s : State) :
    s.pngStarted = { s.withPngFmt with
      engine := .busy
      unit := .png
      faultCode := .noFault
      endReason := .noReason
      inPos := 0
      pixCnt := 0
      mem := s.withPngFmt.zeroUsed.mem
      png := s.pngStarted.png } := by
  rw [State.pngStarted, zeroUsed_eq]

/-- The unit that PNG_START sets up has the bands and bytes per pixel of the configuration. -/
theorem pngStarted_png {s : State} (h : PngLegal s (pngBands s.inFmt.colorType.toNat)) :
    s.pngStarted.png.bands.toNat = pngBands s.inFmt.colorType.toNat ∧
      s.pngStarted.png.bpp.toNat = max 1 (pngBands s.inFmt.colorType.toNat * s.inFmt.bitDepth.toNat / 8) := by
  obtain ⟨hbands, -, -, hbpp⟩ := pngTable_sizes _ h.pair
  exact ⟨Nat.mod_eq_of_lt (Nat.lt_of_le_of_lt hbands (by decide)), Nat.mod_eq_of_lt hbpp⟩

theorem enterPass_of_findPass {pass p : Nat} {s : State}
    (h : findPass s.inFmt.interlace s.width.toNat s.height.toNat 7 pass = some p) :
    enterPass pass s = beginPass p s := by
  simp only [enterPass, h]

theorem exec_pngStart_eq_beginPass {s : State} (hready : s.engine = .idle ∨ s.engine = .done)
    (hlegal : PngLegal s (pngBands s.inFmt.colorType.toNat)) : exec .pngStart s = .next (beginPass 1 s.pngStarted) := by
  rw [exec_pngStart_of_legal hready hlegal, pngInit_beginUnit, enterPass_of_findPass]
  rw [pngStarted_eq]
  exact findPass_first hlegal.size.1 hlegal.size.2

/-- Settles O42. -/
theorem pngStartInitialises : Obligations.PngStartInitialises := by
  intro s bands hready hlegal _
  obtain rfl := ((pngPair_iff _ _ _).2 hlegal.pair).2
  obtain ⟨hbpc, hncomp, hmask⟩ := pngTable_outFmt_eq _ hlegal.pair
  obtain ⟨hbands, hbpp⟩ := pngStarted_png hlegal
  refine ⟨_, exec_pngStart_eq_beginPass hready hlegal, ?_⟩
  have hprior (i : Nat) := beginPass_prior (p := 1) (s := s.pngStarted) (k := i)
  have hout (a : Nat) : InUsedOut s.withPngFmt a → (beginPass 1 s.pngStarted).byteAt a = 0 := byteAt_zeroUsed_of_out _
  have hinMask (a : Nat) : InUsedMask s.withPngFmt a → (beginPass 1 s.pngStarted).byteAt a = 0 :=
    byteAt_zeroUsed_of_mask _
  have hunused : KeepsUnused s.withPngFmt (beginPass 1 s.pngStarted) := zeroUsed_keepsUnused _
  rw [pngStarted_eq] at hprior hbands hbpp hout hinMask hunused ⊢
  exact ⟨rfl, hbpc, hncomp, hmask, hbands, rfl, hbpp, rfl, rfl, hprior, hout, hinMask, hunused⟩

end Sys2Proof.Machine

/-! ### What a row leaves (R223 to R227, R233) -/

namespace Sys2Proof.Machine

theorem scanline_length (pred : Predictor) (s : State) : (scanline pred s).length = s.png.rowBytes.toNat := by
  simp [scanline, inputBytes]

/-- An array whose first entries are a row. -/
theorem Table.get_put_scanline (table : Table 8) (pred : Predictor) {s : State} {k : Nat}
    (hk : k < s.png.rowBytes.toNat) : (table.put 0 (scanline pred s)).get k = (scanline pred s).getD k 0 := by
  rw [Table.get_put, scanline_length, if_pos (by omega), Nat.sub_zero]

section
variable {s : State}

theorem afterRow_curr (pred : Predictor) {k : Nat} (hk : k < s.png.rowBytes.toNat) :
    (s.afterRow pred).png.curr.get k = (scanline pred s).getD k 0 := Table.get_put_scanline _ pred hk

theorem afterRow_prior (pred : Predictor) {k : Nat} (hk : k < s.png.rowBytes.toNat) :
    (s.afterRow pred).png.prior.get k = (scanline pred s).getD k 0 := Table.get_put_scanline _ pred hk

/-- The neighbours that byte `k` of a row is predicted from (R224, R225). -/
theorem predictAt_take {pred : Predictor} {bpp : Nat} (hbpp : 1 ≤ bpp) (prior row : List Byte) {k : Nat}
    (hk : k < row.length) :
    predictAt pred bpp prior (row.take k) = pred (if bpp ≤ k then (row.getD (k - bpp) 0).toNat else 0)
      (prior.getD k 0).toNat (if bpp ≤ k then (prior.getD (k - bpp) 0).toNat else 0) := by
  have hlen : (row.take k).length = k := by rw [List.length_take]; omega
  have hleft (h : bpp ≤ k) : (row.take k).getD (k - bpp) 0 = row.getD (k - bpp) 0 := by
    rw [List.getD_eq_getElem?_getD, List.getElem?_take_of_lt (by omega), List.getD_eq_getElem?_getD]
  unfold predictAt
  rw [hlen]
  dsimp only
  split_ifs with h
  · rw [hleft h]
  · rfl

theorem getD_map_range {α : Type} (f : Nat → α) {n k : Nat} (hk : k < n) (d : α) :
    ((List.range n).map f).getD k d = f k := by
  simp [hk]

/-- Byte `k` of the row reconstructed from the input and the prior row (R225). -/
theorem scanline_getD {pred : Predictor} (hbpp : 1 ≤ s.png.bpp.toNat) {k : Nat} (hk : k < s.png.rowBytes.toNat) :
    (scanline pred s).getD k 0 = BitVec.ofNat 8 ((s.byteAt (0x10000000 + s.inPos.toNat + k)).toNat +
      pred (if s.png.bpp.toNat ≤ k then ((scanline pred s).getD (k - s.png.bpp.toNat) 0).toNat else 0)
        (s.png.prior.get k).toNat
        (if s.png.bpp.toNat ≤ k then (s.png.prior.get (k - s.png.bpp.toNat)).toNat else 0)) := by
  have hlen := scanline_length pred s
  have hraw : (inputBytes s s.png.rowBytes.toNat).getD k 0 = s.byteAt (0x10000000 + s.inPos.toNat + k) := by
    rw [inputBytes, getD_map_range _ hk, State.peek, Space.base, Nat.add_assoc]
  have hprior {j : Nat} (hj : j < s.png.rowBytes.toNat) :
      (s.png.prior.prefixList s.png.rowBytes.toNat).getD j 0 = s.png.prior.get j := getD_map_range _ hj 0
  rw [scanline] at hlen ⊢
  rw [unfilterRow_getD _ _ _ _ _ (by simpa [inputBytes] using hk), predictAt_take hbpp _ _ (hk.trans_eq hlen.symm),
    hraw, hprior hk, hprior ((Nat.sub_le ..).trans_lt hk)]

end

/-- The five predictors of the statement are those of the filters. -/
theorem exec_filter_of_pred {i : Instr} {pred : Predictor} (s : State)
    (h : (i = .filterNone ∧ pred = fun _ _ _ => 0) ∨ (i = .filterSub ∧ pred = fun a _ _ => a) ∨
      (i = .filterUp ∧ pred = fun _ b _ => b) ∨ (i = .filterAvg ∧ pred = fun a b _ => (a + b) / 2) ∨
      (i = .filterPaeth ∧ pred = paeth)) : exec i s = filterRow pred s := by
  rcases h with ⟨rfl, rfl⟩ | ⟨rfl, rfl⟩ | ⟨rfl, rfl⟩ | ⟨rfl, rfl⟩ | ⟨rfl, rfl⟩
  all_goals rfl

/-- Settles O44. -/
theorem filtersReconstructTheRow : Obligations.FiltersReconstructTheRow := by
  intro s i pred r hp hpresent hfilter
  have hrow := filterRow_eq_advanceRow hpresent pred
  have hbpp : 1 ≤ s.png.bpp.toNat := by rw [r.bpp]; exact Nat.le_max_left ..
  refine ⟨_, (exec_filter_of_pred s hfilter).trans hrow, ?_, ?_, ?_, filterRow_keepsUnused r hrow, fun k hk => ?_⟩
  · rw [advanceRow_eq]
    rfl
  · rw [advanceRow_eq]
    exact afterRow_inPos hpresent pred
  · rw [advanceRow_eq]
    exact afterRow_pixCnt r hp pred
  · rw [advanceRow_curr, afterRow_curr pred hk, afterRow_curr pred ((Nat.sub_le ..).trans_lt hk)]
    exact scanline_getD hbpp hk

/-- The registers of the pass that a decode goes on with, and the passes that it leaves out (R215, R226, R227). -/
theorem beginPass_next {s : State} (hset : PngSetup s) (hp : s.params.legal = true) {pass p : Nat}
    (hfind : findPass s.inFmt.interlace s.width.toNat s.height.toNat 7 (pass + 1) = some p) :
    PngPass (beginPass p s) ∧ pass < (beginPass p s).png.pass.toNat ∧
      ∀ q, pass < q → q < (beginPass p s).png.pass.toNat →
        passWidthOf s.inFmt.interlace s.width.toNat q = 0 ∨ passHeightOf s.inFmt.interlace s.height.toNat q = 0 := by
  obtain ⟨hle, hlast, hw, hh, hempty⟩ := findPass_some _ _ _ _ _ _ hfind
  obtain ⟨hpass, epass⟩ := beginPass_inPass hset hp ((Nat.le_add_left ..).trans hle) hlast hw hh
  rw [epass]
  exact ⟨hpass, hle, hempty⟩

/-- Settles O45. -/
theorem rowsFollowOneAnother : Obligations.RowsFollowOneAnother := by
  intro s t i r hp hb hi hpresent hexec
  obtain ⟨pred, hrow⟩ := exists_exec_filter_eq_advanceRow hi hpresent
  obtain rfl : advanceRow (s.afterRow pred) = t := by simpa using hrow.symm.trans hexec
  have hset := afterRow_setup r hpresent pred
  rcases advanceRow_cases (s.afterRow pred) with ⟨hlt, h⟩ | ⟨hlast, p, hfind, h⟩ | ⟨hlast, hfind, h⟩ <;> rw [h]
  · have hrows : s.png.srcY.toNat + 1 < s.png.passHeight.toNat := hlt
    have hsucc := succ_toNat_of_lt (Nat.lt_of_succ_lt hrows)
    exact ⟨fun _ => ⟨hb, rfl, hsucc, fun k hk => (afterRow_prior pred hk).trans (afterRow_curr pred hk).symm⟩,
      fun heq => absurd heq hrows.ne, fun heq => absurd heq hrows.ne⟩
  · obtain ⟨hpass, hlater, hempty⟩ := beginPass_next hset hp hfind
    exact ⟨fun hlt => absurd hlt (Nat.not_lt.2 hlast), fun _ _ => ⟨rfl, hlater, hpass.pass.2, hpass.passWidth,
      fun h0 => hpass.nonempty (by simp [h0]), hpass.passHeight, fun h0 => absurd hpass.srcY (by simp [h0]),
      hpass.rowBytes, fun k hk => beginPass_prior hk, hempty⟩, fun _ hne => absurd hb hne⟩
  · have hseven := lastPass_le s.inFmt.interlace
    exact ⟨fun hlt => absurd hlt (Nat.not_lt.2 hlast), fun _ hbusy => EngState.noConfusion hbusy,
      fun _ _ => ⟨rfl, rfl, findPass_none _ _ _ _ _ hfind (by omega)⟩⟩

end Sys2Proof.Machine

/-! ### The places of a row's samples (R228 to R231) -/

namespace Sys2Proof.Machine

/-- The output column of pixel `sx` of the current row (R229). -/
def State.outCol (s : State) (sx : Nat) : Nat :=
  (passGeom s.inFmt.interlace s.png.pass.toNat).xOff + (passGeom s.inFmt.interlace s.png.pass.toNat).xStep * sx

/-- The output row of the current row (R229). -/
def State.outRow (s : State) : Nat :=
  (passGeom s.inFmt.interlace s.png.pass.toNat).yOff +
    (passGeom s.inFmt.interlace s.png.pass.toNat).yStep * s.png.srcY.toNat

/-- Band `k` is the alpha band (R231). -/
def State.IsAlpha (s : State) (k : Nat) : Prop := s.png.alpha = true ∧ k + 1 = s.png.bands.toNat

/-- Sample `k` of pixel `sx` of a row, as it is placed (R228, R230). -/
def State.sampleAt (s : State) (row : List Byte) (sx k : Nat) : Nat :=
  if s.inFmt.bitDepth.toNat = 16 then down8 (sampleOf s.inFmt.bitDepth.toNat row (sx * s.png.bands.toNat + k))
  else sampleOf s.inFmt.bitDepth.toNat row (sx * s.png.bands.toNat + k)

section
variable {s : State} {k : Nat} (row : List Byte) (x y sx : Nat)

theorem placeSample_of_alpha (h : s.IsAlpha k) : placeSample row x y sx s k =
    s.poke .maskbuf (y * s.width.toNat + x) [BitVec.ofNat 8 (s.sampleAt row sx k)] :=
  if_pos (by simpa [State.IsAlpha] using h)

theorem placeSample_of_color (h : ¬ s.IsAlpha k) :
    placeSample row x y sx s k = setPixel s x y k (s.sampleAt row sx k) :=
  if_neg (by simpa [State.IsAlpha] using h)

end

theorem State.outCol_injective (s : State) : Function.Injective s.outCol := fun _ _ h =>
  Nat.eq_of_mul_eq_mul_left (passGeom_steps_pos _ _).1 (Nat.add_left_cancel h)

section
variable {s : State} (hpass : PngPass s)
include hpass

theorem PngPass.outCol_lt {sx : Nat} (hsx : sx < s.png.passWidth.toNat) : s.outCol sx < s.width.toNat :=
  add_mul_lt_of_lt_ceilDiv (passGeom_steps_pos _ _).1 (hsx.trans_eq hpass.passWidth)

theorem PngPass.outRow_lt : s.outRow < s.height.toNat :=
  add_mul_lt_of_lt_ceilDiv (passGeom_steps_pos _ _).2 (hpass.srcY.trans_eq hpass.passHeight)

/-- A sample of the row lies in its bytes (R212, R228). -/
theorem PngPass.sample_bits_le {sx k : Nat} (hsx : sx < s.png.passWidth.toNat) (hk : k < s.png.bands.toNat) :
    (sx * s.png.bands.toNat + k + 1) * s.inFmt.bitDepth.toNat ≤ 8 * s.png.rowBytes.toNat := by
  have hsample : sx * s.png.bands.toNat + k + 1 ≤ s.png.passWidth.toNat * s.png.bands.toNat :=
    calc sx * s.png.bands.toNat + k + 1 ≤ (sx + 1) * s.png.bands.toNat := by rw [Nat.succ_mul]; omega
      _ ≤ s.png.passWidth.toNat * s.png.bands.toNat := Nat.mul_le_mul_right _ hsx
  calc (sx * s.png.bands.toNat + k + 1) * s.inFmt.bitDepth.toNat
      ≤ s.png.passWidth.toNat * s.png.bands.toNat * s.inFmt.bitDepth.toNat := Nat.mul_le_mul_right _ hsample
    _ ≤ 8 * strideOf s.png.passWidth.toNat s.png.bands.toNat s.inFmt.bitDepth.toNat := le_mul_strideOf ..
    _ = 8 * s.png.rowBytes.toNat := by rw [hpass.rowBytes, strideOf, Nat.mul_comm s.png.bands.toNat]

end

theorem pngTable_depth : ∀ e ∈ pngTable, e.2.1 ∈ [1, 2, 4, 8, 16] := by decide

section
variable {s : State} (hset : PngSetup s)
include hset

theorem PngSetup.bitDepth_cases : (1 ≤ s.inFmt.bitDepth.toNat ∧ s.inFmt.bitDepth.toNat < 8) ∨
    s.inFmt.bitDepth.toNat = 8 ∨ s.inFmt.bitDepth.toNat = 16 := by
  have hmem := pngTable_depth _ hset.check.pair
  simp only [List.mem_cons, List.not_mem_nil, or_false] at hmem
  omega

theorem PngSetup.bpc_eq :
    s.outFmt.bpc.toNat = if s.inFmt.bitDepth.toNat = 16 then 8 else s.inFmt.bitDepth.toNat := by
  rw [hset.fmt]
  exact (pngTable_outFmt_eq _ hset.check.pair).1

theorem PngSetup.bpc_lt_eight_iff : s.outFmt.bpc.toNat < 8 ↔ s.inFmt.bitDepth.toNat < 8 := by
  rw [hset.bpc_eq]
  split <;> omega

theorem PngSetup.bpc_mem : s.outFmt.bpc.toNat ∈ [1, 2, 4, 8, 16] := by
  rw [hset.bpc_eq]
  split
  · decide
  · exact pngTable_depth _ hset.check.pair

theorem PngSetup.bpc_bounds : 1 ≤ s.outFmt.bpc.toNat ∧ s.outFmt.bpc.toNat ≤ 8 := by
  have hcases := hset.bitDepth_cases
  rw [hset.bpc_eq]
  split <;> omega

/-- The color bands are the components of the output. -/
theorem PngSetup.ncomp_eq : s.outFmt.ncomp.toNat = s.png.bands.toNat - s.png.alpha.toNat := by
  rw [hset.fmt, hset.alpha]
  exact (pngTable_outFmt _ hset.check.pair).2

theorem PngSetup.lt_ncomp_iff {k : Nat} (hk : k < s.png.bands.toNat) : k < s.outFmt.ncomp.toNat ↔ ¬ s.IsAlpha k := by
  rw [hset.ncomp_eq, State.IsAlpha]
  cases s.png.alpha
  · simpa using hk
  · simp only [Bool.toNat_true, true_and]
    omega

/-- The used region of OUTBUF ends before MASKBUF begins (00_scope.md R6, 20_memory.md R62). -/
theorem PngSetup.usedOut_le (hp : s.params.legal = true) : s.usedOut ≤ 2 ^ 28 := by
  obtain ⟨hbpc, hncomp, -⟩ := pngTable_outFmt_eq _ hset.check.pair
  obtain ⟨-, ⟨-, hout⟩, -⟩ := (Params.legal_iff _).1 hp
  have hfits := hset.check.fits
  dsimp only at hbpc hncomp
  rw [← hbpc, ← hncomp, ← hset.fmt] at hfits
  exact hfits.trans hout

theorem PngSetup.sampleAt_lt (row : List Byte) (sx k : Nat) : s.sampleAt row sx k < 2 ^ s.outFmt.bpc.toNat := by
  rw [hset.bpc_eq, State.sampleAt]
  split_ifs with h16
  · exact Nat.mod_lt _ (by decide)
  · rw [sampleOf, if_neg h16]
    split_ifs with h8
    · rw [h8]
      exact BitVec.isLt _
    · exact Nat.mod_lt _ (Nat.two_pow_pos _)

theorem PngSetup.sampleAt_lt_256 (row : List Byte) (sx k : Nat) : s.sampleAt row sx k < 2 ^ 8 :=
  (hset.sampleAt_lt row sx k).trans_le (Nat.pow_le_pow_right Nat.two_pos hset.bpc_bounds.2)

end

/-- A sample in bounds lies in the used region of OUTBUF. -/
theorem State.byteIdx_lt {s : State} {x y c : Nat} (h : InBounds s x y c) (hdepth : 1 ≤ s.outFmt.bpc.toNat) :
    s.byteIdx x y c < s.usedOut := by
  have hend := State.bitAddr_add_bpc_le h
  rw [State.byteIdx]
  omega

/-- At most 8 bits deep, a sample is written to one byte. -/
theorem byteAt_setPixel_other {s : State} (hdepth : s.outFmt.bpc.toNat ≤ 8) {x y c a : Nat} (v : Nat)
    (ha : a ≠ 0x20000000 + s.byteIdx x y c) : (setPixel s x y c v).byteAt a = s.byteAt a := by
  rcases hdepth.lt_or_eq with h | h
  · rw [setPixel_of_lt_eight _ _ _ _ h, State.byteAt_poke_one]
    exact if_neg ha
  · rw [setPixel_of_eight _ _ _ _ h, State.byteAt_poke_one]
    exact if_neg ha

/-- At most 8 bits deep, a sample is read from one byte. -/
theorem getPixel_congr {s t : State} (ho : t.outFmt = s.outFmt) (hw : t.width = s.width)
    (hdepth : s.outFmt.bpc.toNat ≤ 8) {x y c : Nat}
    (hbyte : t.peek .outbuf (s.byteIdx x y c) = s.peek .outbuf (s.byteIdx x y c)) :
    getPixel t x y c = getPixel s x y c := by
  have haddr : t.bitAddr x y c = s.bitAddr x y c := by simp only [State.bitAddr, State.stride, ho, hw]
  have hidx : t.byteIdx x y c = s.byteIdx x y c := congrArg (· / 8) haddr
  have hshift : t.shiftOf x y c = s.shiftOf x y c := by rw [State.shiftOf, State.shiftOf, ho, haddr]
  rcases hdepth.lt_or_eq with h | h
  · have ht : t.outFmt.bpc.toNat < 8 := by rwa [ho]
    rw [getPixel_of_lt_eight _ _ _ h, getPixel_of_lt_eight _ _ _ ht, hidx, hshift, hbyte, ho]
  · have ht : t.outFmt.bpc.toNat = 8 := by rwa [ho]
    rw [getPixel_of_eight _ _ _ h, getPixel_of_eight _ _ _ ht, hidx, hbyte]

/-! ### What placing one sample does -/

/-- A byte written to MASKBUF is none of OUTBUF's (20_memory.md R62). -/
theorem State.peek_outbuf_poke_maskbuf (s : State) (i : Nat) (v : Byte) {j : Nat} (hj : j < 2 ^ 28) :
    (s.poke .maskbuf i [v]).peek .outbuf j = s.peek .outbuf j := by
  rw [State.peek, State.byteAt_poke_one, if_neg, State.peek]
  simp only [Space.base]
  omega

section
variable {s : State} (hset : PngSetup s) {x y k : Nat} (row : List Byte) (sx : Nat)
include hset

theorem byteAt_placeSample_alpha (h : s.IsAlpha k) :
    ((placeSample row x y sx s k).byteAt (0x30000000 + (y * s.width.toNat + x))).toNat = s.sampleAt row sx k := by
  have hplaced : (placeSample row x y sx s k).byteAt (0x30000000 + (y * s.width.toNat + x)) =
      BitVec.ofNat 8 (s.sampleAt row sx k) := by
    rw [placeSample_of_alpha row x y sx h, State.byteAt_poke_one]
    exact if_pos rfl
  rw [hplaced, BitVec.toNat_ofNat, Nat.mod_eq_of_lt (hset.sampleAt_lt_256 row sx k)]

/-- A byte that does not hold the sample. -/
theorem byteAt_placeSample_other {a : Nat} (hmask : s.IsAlpha k → a ≠ 0x30000000 + (y * s.width.toNat + x))
    (hout : ¬ s.IsAlpha k → a ≠ 0x20000000 + s.byteIdx x y k) : (placeSample row x y sx s k).byteAt a = s.byteAt a := by
  by_cases h : s.IsAlpha k
  · rw [placeSample_of_alpha row x y sx h, State.byteAt_poke_one]
    exact if_neg (hmask h)
  · rw [placeSample_of_color row x y sx h]
    exact byteAt_setPixel_other hset.bpc_bounds.2 _ (hout h)

/-- A color sample replaces what stood in its place, below 8 bits by OR (41_pixel_buffer.md R135). -/
theorem getPixel_placeSample_color (h : ¬ s.IsAlpha k) : getPixel (placeSample row x y sx s k) x y k =
    (if s.outFmt.bpc.toNat < 8 then getPixel s x y k else 0) ||| s.sampleAt row sx k := by
  rw [placeSample_of_color row x y sx h]
  exact getPixel_setPixel_same hset.bpc_mem x y k (hset.sampleAt_lt row sx k)

/-- A sample of the image at other coordinates: the alpha sample is in MASKBUF, which holds none. -/
theorem getPixel_placeSample_other (hp : s.params.legal = true) (hx : x < s.width.toNat) (hy : y < s.height.toNat)
    (hk : k < s.png.bands.toNat) {x' y' k' : Nat} (h' : InBounds s x' y' k') (hne : (x', y', k') ≠ (x, y, k)) :
    getPixel (placeSample row x y sx s k) x' y' k' = getPixel s x' y' k' := by
  by_cases h : s.IsAlpha k
  · have hidx := (State.byteIdx_lt h' hset.bpc_bounds.1).trans_le (hset.usedOut_le hp)
    rw [placeSample_of_alpha row x y sx h]
    exact getPixel_congr (poke_outFmt ..) (poke_width ..) hset.bpc_bounds.2 (State.peek_outbuf_poke_maskbuf s _ _ hidx)
  · rw [placeSample_of_color row x y sx h]
    exact getPixel_setPixel_other hset.bpc_mem (hset.sampleAt_lt row sx k) ⟨hx, hy, (hset.lt_ncomp_iff hk).2 h⟩ h' hne

end

/-! ### What a row of samples does to one byte or sample -/

section
variable {α : Type} {s : State} {g : State → α} {f : State → Nat → State} {l : List Nat}
  (hplaced : ∀ t, OnlyPlaced s t → ∀ i ∈ l, OnlyPlaced t (f t i))
include hplaced

/-- What no placing touches stays. -/
theorem foldl_untouched (hother : ∀ t, OnlyPlaced s t → ∀ i ∈ l, g (f t i) = g t) :
    OnlyPlaced s (l.foldl f s) ∧ g (l.foldl f s) = g s :=
  List.foldlRecOn l f (motive := fun t => OnlyPlaced s t ∧ g t = g s) ⟨.refl s, rfl⟩ fun t ht i hi =>
    ⟨ht.1.trans (hplaced t ht.1 i hi), (hother t ht.1 i hi).trans ht.2⟩

/-- What one placing touches changes once. -/
theorem foldl_touched_once {F : α → α} {i : Nat} (hi : i ∈ l) (hnodup : l.Nodup)
    (hself : ∀ t, OnlyPlaced s t → g (f t i) = F (g t))
    (hother : ∀ t, OnlyPlaced s t → ∀ j ∈ l, j ≠ i → g (f t j) = g t) : g (l.foldl f s) = F (g s) := by
  obtain ⟨l₁, l₂, rfl⟩ := List.append_of_mem hi
  obtain ⟨hl₁, hl₂⟩ : i ∉ l₁ ∧ i ∉ l₂ := by
    rw [List.nodup_append, List.nodup_cons] at hnodup
    exact ⟨fun h => hnodup.2.2 i h i List.mem_cons_self rfl, hnodup.2.1.1⟩
  have hbefore := foldl_untouched (g := g) (l := l₁) (fun t ht j hj => hplaced t ht j (by simp [hj]))
    fun t ht j hj => hother t ht j (by simp [hj]) (ne_of_mem_of_not_mem hj hl₁)
  have hat := hplaced _ hbefore.1 i hi
  have hafter := foldl_untouched (g := g) (l := l₂) (s := f (l₁.foldl f s) i)
    (fun t ht j hj => hplaced t (hbefore.1.trans (hat.trans ht)) j (by simp [hj]))
    fun t ht j hj => hother t (hbefore.1.trans (hat.trans ht)) j (by simp [hj]) (ne_of_mem_of_not_mem hj hl₂)
  rw [List.foldl_append, List.foldl_cons, hafter.2, hself _ hbefore.1, hbefore.2]

end

section
variable {s : State} (hset : PngSetup s) (hpass : PngPass s) (row : List Byte)
include hset hpass

theorem placeSamples_onlyPlaced {sx : Nat} (hsx : sx < s.png.passWidth.toNat) (t : State) (ht : OnlyPlaced s t) :
    ∀ k ∈ List.range s.png.bands.toNat, OnlyPlaced t (placeSample row (s.outCol sx) s.outRow sx t k) := by
  intro k hk
  have hset' := hset.of_placed ht
  obtain ⟨_, _, rfl, -⟩ := ht
  exact placeSample_onlyPlaced hset' (hpass.outCol_lt hsx) hpass.outRow_lt (List.mem_range.1 hk) row sx

theorem placePixels_onlyPlaced (t : State) (ht : OnlyPlaced s t) :
    ∀ sx ∈ List.range s.png.passWidth.toNat, OnlyPlaced t (placePixel row t sx) := by
  intro sx hsx
  have hset' := hset.of_placed ht
  have hpass' := hpass.of_placed ht
  obtain ⟨_, _, rfl, -⟩ := ht
  exact placePixel_onlyPlaced hset' hpass' (List.mem_range.1 hsx) row

section
variable {α : Type} {g : State → α} (hcount : ∀ t n, g { t with pixCnt := n } = g t)
include hcount

theorem placePixel_untouched {sx : Nat} (hsx : sx < s.png.passWidth.toNat)
    (hother : ∀ t, OnlyPlaced s t → ∀ k < s.png.bands.toNat, g (placeSample row (s.outCol sx) s.outRow sx t k) = g t) :
    g (placePixel row s sx) = g s :=
  (hcount ..).trans (foldl_untouched (placeSamples_onlyPlaced hset hpass row hsx)
    fun t ht k hk => hother t ht k (List.mem_range.1 hk)).2

theorem placeRow_untouched (hother : ∀ t, OnlyPlaced s t → ∀ sx < s.png.passWidth.toNat, ∀ k < s.png.bands.toNat,
    g (placeSample row (s.outCol sx) s.outRow sx t k) = g t) : g (placeRow row s) = g s := by
  refine (foldl_untouched (placePixels_onlyPlaced hset hpass row) fun t ht sx hsx => ?_).2
  have hset' := hset.of_placed ht
  have hpass' := hpass.of_placed ht
  have hother' (u : State) (hu : OnlyPlaced t u) := hother u (ht.trans hu) sx (List.mem_range.1 hsx)
  obtain ⟨_, _, rfl, -⟩ := ht
  exact placePixel_untouched hset' hpass' row hcount (List.mem_range.1 hsx) hother'

/-- What the one sample `(sx, k)` of a row touches changes as that sample changes it. -/
theorem placeRow_touched_once {F : α → α} {sx k : Nat} (hsx : sx < s.png.passWidth.toNat) (hk : k < s.png.bands.toNat)
    (hself : ∀ t, OnlyPlaced s t → g (placeSample row (s.outCol sx) s.outRow sx t k) = F (g t))
    (hother : ∀ t, OnlyPlaced s t → ∀ sx' < s.png.passWidth.toNat, ∀ k' < s.png.bands.toNat, (sx', k') ≠ (sx, k) →
      g (placeSample row (s.outCol sx') s.outRow sx' t k') = g t) : g (placeRow row s) = F (g s) := by
  refine foldl_touched_once (placePixels_onlyPlaced hset hpass row) (List.mem_range.2 hsx) List.nodup_range
    (fun t ht => ?_) fun t ht sx' hsx' hne => ?_
  all_goals
    have hset' := hset.of_placed ht
    have hpass' := hpass.of_placed ht
    have hself' (u : State) (hu : OnlyPlaced t u) := hself u (ht.trans hu)
    have hother' (u : State) (hu : OnlyPlaced t u) := hother u (ht.trans hu)
    obtain ⟨_, _, rfl, -⟩ := ht
  · refine (hcount ..).trans (foldl_touched_once (placeSamples_onlyPlaced hset' hpass' row hsx) (List.mem_range.2 hk)
      List.nodup_range hself' fun u hu k' hk' hne => ?_)
    exact hother' u hu sx hsx k' (List.mem_range.1 hk') (by simpa using hne)
  · have hlt := List.mem_range.1 hsx'
    exact placePixel_untouched hset' hpass' row hcount hlt fun u hu k' hk' =>
      hother' u hu sx' hlt k' hk' (by simp [hne])

end

/-! ### What a row leaves in OUTBUF and MASKBUF -/

/-- A byte that holds none of the row's samples. -/
theorem byteAt_placeRow_other {a : Nat}
    (hout : ∀ sx k, sx < s.png.passWidth.toNat → k < s.outFmt.ncomp.toNat →
      a ≠ 0x20000000 + s.byteIdx (s.outCol sx) s.outRow k)
    (hmask : s.png.alpha = true → ∀ sx, sx < s.png.passWidth.toNat →
      a ≠ 0x30000000 + (s.outRow * s.width.toNat + s.outCol sx)) : (placeRow row s).byteAt a = s.byteAt a := by
  refine placeRow_untouched hset hpass row (g := fun t => t.byteAt a) (fun _ _ => rfl) fun t ht sx hsx k hk => ?_
  have hset' := hset.of_placed ht
  obtain ⟨_, _, rfl, -⟩ := ht
  exact byteAt_placeSample_other hset' row sx (fun halpha => hmask halpha.1 sx hsx)
    fun hcolor => hout sx k hsx ((hset.lt_ncomp_iff hk).2 hcolor)

section
variable (hp : s.params.legal = true)
include hp

/-- An alpha sample is in MASKBUF after its row: no other sample of the row is placed there (R231). -/
theorem byteAt_placeRow_alpha {sx k : Nat} (hsx : sx < s.png.passWidth.toNat) (hk : k < s.png.bands.toNat)
    (h : s.IsAlpha k) :
    ((placeRow row s).byteAt (0x30000000 + (s.outRow * s.width.toNat + s.outCol sx))).toNat = s.sampleAt row sx k := by
  refine placeRow_touched_once hset hpass row
    (g := fun t => (t.byteAt (0x30000000 + (s.outRow * s.width.toNat + s.outCol sx))).toNat)
    (F := fun _ => s.sampleAt row sx k) (fun _ _ => rfl) hsx hk (fun t ht => ?_) fun t ht sx' hsx' k' hk' hne => ?_
  all_goals
    have hset' := hset.of_placed ht
    obtain ⟨_, _, rfl, -⟩ := ht
  · exact byteAt_placeSample_alpha hset' row sx h
  · refine congrArg BitVec.toNat (byteAt_placeSample_other hset' row sx' (fun halpha heq => ?_) fun hcolor heq => ?_)
    · have hcol : s.outCol sx = s.outCol sx' := Nat.add_left_cancel (Nat.add_left_cancel heq)
      have hband : k = k' := Nat.succ.inj (h.2.trans halpha.2.symm)
      exact hne (by rw [s.outCol_injective hcol, hband])
    · have hin : InBounds s (s.outCol sx') s.outRow k' :=
        ⟨hpass.outCol_lt hsx', hpass.outRow_lt, (hset.lt_ncomp_iff hk').2 hcolor⟩
      have hidx := (State.byteIdx_lt hin hset.bpc_bounds.1).trans_le (hset.usedOut_le hp)
      have haddr : 0x30000000 + (s.outRow * s.width.toNat + s.outCol sx) =
          0x20000000 + s.byteIdx (s.outCol sx') s.outRow k' := heq
      omega

/-- A color sample is in OUTBUF after its row, below 8 bits over what stood there (R230). -/
theorem getPixel_placeRow_color {sx k : Nat} (hsx : sx < s.png.passWidth.toNat) (hk : k < s.png.bands.toNat)
    (h : ¬ s.IsAlpha k) : getPixel (placeRow row s) (s.outCol sx) s.outRow k =
      (if s.outFmt.bpc.toNat < 8 then getPixel s (s.outCol sx) s.outRow k else 0) ||| s.sampleAt row sx k := by
  have hin : InBounds s (s.outCol sx) s.outRow k :=
    ⟨hpass.outCol_lt hsx, hpass.outRow_lt, (hset.lt_ncomp_iff hk).2 h⟩
  refine placeRow_touched_once hset hpass row (g := fun t => getPixel t (s.outCol sx) s.outRow k)
    (F := fun v => (if s.outFmt.bpc.toNat < 8 then v else 0) ||| s.sampleAt row sx k) (fun _ _ => rfl) hsx hk
    (fun t ht => ?_) fun t ht sx' hsx' k' hk' hne => ?_
  all_goals
    have hset' := hset.of_placed ht
    obtain ⟨_, _, rfl, -⟩ := ht
  · exact getPixel_placeSample_color hset' row sx h
  · refine getPixel_placeSample_other hset' row sx' hp (hpass.outCol_lt hsx') hpass.outRow_lt hk' hin fun heq => ?_
    simp only [Prod.mk.injEq] at heq
    obtain ⟨hcol, -, hband⟩ := heq
    exact hne (by rw [s.outCol_injective hcol, hband])

/-- A sample of the image that is none of the row's. -/
theorem getPixel_placeRow_other {x y k : Nat} (hin : InBounds s x y k)
    (hne : y ≠ s.outRow ∨ ∀ sx, sx < s.png.passWidth.toNat → x ≠ s.outCol sx) :
    getPixel (placeRow row s) x y k = getPixel s x y k := by
  refine placeRow_untouched hset hpass row (g := fun t => getPixel t x y k) (fun _ _ => rfl)
    fun t ht sx hsx k' hk' => ?_
  have hset' := hset.of_placed ht
  obtain ⟨_, _, rfl, -⟩ := ht
  refine getPixel_placeSample_other hset' row sx hp (hpass.outCol_lt hsx) hpass.outRow_lt hk' hin fun heq => ?_
  simp only [Prod.mk.injEq] at heq
  obtain ⟨hcol, hrow, -⟩ := heq
  exact hne.elim (fun hy => hy hrow) fun hx => hx sx hsx hcol

end

/-! ### The samples of a reconstructed row -/

/-- The sample that a row's bytes hold, wherever they are read from (R228, 41_pixel_buffer.md R144). -/
theorem sampleAt_eq {row} {b : Nat → Byte} (hb : ∀ i < s.png.rowBytes.toNat, b i = row.getD i 0) {sx k : Nat}
    (hsx : sx < s.png.passWidth.toNat) (hk : k < s.png.bands.toNat) : s.sampleAt row sx k =
      if s.inFmt.bitDepth.toNat = 16 then (b (2 * (sx * s.png.bands.toNat + k))).toNat
      else if s.inFmt.bitDepth.toNat = 8 then (b (sx * s.png.bands.toNat + k)).toNat
      else ((b ((sx * s.png.bands.toNat + k) * s.inFmt.bitDepth.toNat / 8)).toNat >>>
        (8 - s.inFmt.bitDepth.toNat - (sx * s.png.bands.toNat + k) * s.inFmt.bitDepth.toNat % 8)) %
          2 ^ s.inFmt.bitDepth.toNat := by
  have hbits := hpass.sample_bits_le hsx hk
  have hdepth := hset.bitDepth_cases
  unfold State.sampleAt sampleOf
  generalize sx * s.png.bands.toNat + k = j at hbits
  split_ifs with h16 h8
  · rw [h16] at hbits
    rw [hb _ (by omega)]
    have hhigh := (row.getD (2 * j) 0).isLt
    have hlow := (row.getD (2 * j + 1) 0).isLt
    rw [down8]
    omega
  · rw [h8] at hbits
    rw [hb _ (by omega)]
  · rw [Nat.succ_mul] at hbits
    rw [hb _ (by omega)]

end

/-! ### A filter's row is placed -/

section
variable {s : State} (r : PngRun s)
include r

theorem withRow_inPass (pred : Predictor) : PngPass (s.withRow pred) := { r.inPass with }

theorem withRow_setup (h : s.inPos.toNat + s.png.rowBytes.toNat ≤ s.inLen.toNat) (pred : Predictor) :
    PngSetup (s.withRow pred) :=
  { r.setup with check := { r.check with }, pos := (afterRow_inPos h pred).trans_le h }

end

/-- The memory after a row is what placing it left. -/
theorem byteAt_advanceRow_afterRow (s : State) (pred : Predictor) (a : Nat) :
    (advanceRow (s.afterRow pred)).byteAt a = (placeRow (scanline pred s) (s.withRow pred)).byteAt a := by
  rw [advanceRow_eq, placeRow_eq]
  rfl

theorem getPixel_advanceRow_afterRow (s : State) (pred : Predictor) (x y k : Nat) :
    getPixel (advanceRow (s.afterRow pred)) x y k = getPixel (placeRow (scanline pred s) (s.withRow pred)) x y k := by
  rw [advanceRow_eq, placeRow_eq]
  rfl

/-- Settles O46. -/
theorem rowsPlaceTheirSamples : Obligations.RowsPlaceTheirSamples := by
  intro s t i r hp hi hpresent hexec x y hx hy
  obtain ⟨pred, hrow⟩ := exists_exec_filter_eq_advanceRow hi hpresent
  obtain rfl : advanceRow (s.afterRow pred) = t := by simpa using hrow.symm.trans hexec
  obtain rfl : x = s.outCol := funext hx
  obtain rfl : y = s.outRow := hy
  have hset := withRow_setup r hpresent pred
  have hpass := withRow_inPass r pred
  refine ⟨fun sx k v hsx hk hv => ?_, fun a hout hmask => ?_, fun x' y' k' hin hne => ?_⟩
  · have hsample : v = (s.withRow pred).sampleAt (scanline pred s) sx k := by
      rw [hv, advanceRow_curr]
      have hcurr (i : Nat) (hi : i < s.png.rowBytes.toNat) := afterRow_curr pred hi
      exact (sampleAt_eq hset hpass hcurr hsx hk).symm
    refine ⟨fun halpha => ?_, fun hcolor => ?_⟩
    · rw [byteAt_advanceRow_afterRow, hsample]
      exact byteAt_placeRow_alpha hset hpass _ hp hsx hk halpha
    · have hpixel := getPixel_placeRow_color hset hpass (scanline pred s) hp hsx hk hcolor
      rw [← hsample] at hpixel
      rw [getPixel_advanceRow_afterRow]
      refine ⟨fun h8 => ?_, fun h8 => ?_⟩
      · rw [if_neg (mt hset.bpc_lt_eight_iff.1 (Nat.not_lt.2 h8)), Nat.zero_or] at hpixel
        exact hpixel
      · rw [if_pos (hset.bpc_lt_eight_iff.2 h8)] at hpixel
        exact hpixel
  · rw [byteAt_advanceRow_afterRow]
    exact byteAt_placeRow_other hset hpass _ hout hmask
  · rw [getPixel_advanceRow_afterRow]
    exact getPixel_placeRow_other hset hpass _ hp hin hne

end Sys2Proof.Machine

/-! ## Faults and ends (60_exceptions.md) -/

/-! ### FAULT is left only by a reset (R275) -/

namespace Sys2Proof.Machine

/-- The next state is in FAULT, where a meaning answers one. -/
def StaysInFault : Result → Prop
  | .next t => t.engine = .fault
  | .fault _ => True
  | .refused _ => True

theorem busAccess_engine (op : BusOp) (s : State) : (busAccess op s).engine = s.engine := by
  obtain ⟨r, t, heq, ht⟩ := busAccess_cases op s
  rw [heq, respond_engine]
  rcases ht with rfl | ⟨-, rfl⟩ | ⟨offset, -, rfl⟩ | ⟨-, sp, i, -, rfl⟩
  · rfl
  · exact refuse_engine s
  · exact storeReg_engine ..
  · exact poke_engine ..

section
variable {s : State} (h : s.engine = .fault)
include h

/-- A refused command leaves STATE as it is (40_control.md R111). -/
theorem AcceptedIf.staysInFault {accepts : Bool} {i : Instr} (ha : AcceptedIf accepts i s) (hacc : accepts = false) :
    StaysInFault (exec i s) := by
  rw [ha.refused hacc]
  exact h

/-- In FAULT the commands other than NOP and RESET, whose word is 1, are refused (40_control.md R110). -/
theorem exec_decodeCmd_staysInFault {w : Word} (hw : w ≠ 1) : StaysInFault (exec (decodeCmd w) s) := by
  have hwork := acceptsWork_of_fault h
  unfold decodeCmd
  iterate 29 refine exec_ite (P := StaysInFault) ((refuse_engine s).trans h) ?_
  refine exec_ite (P := StaysInFault) h ?_
  rw [if_neg (by simpa using hw)]
  refine exec_ite ((abort_accepted s).staysInFault h (acceptsAbort_of_fault h)) ?_
  refine exec_ite ((pbClear_accepted s).staysInFault h hwork) ?_
  refine exec_ite ((pbSet_accepted s).staysInFault h hwork) ?_
  refine exec_ite ((pbGet_accepted s).staysInFault h hwork) ?_
  exact exec_ite ((lzwStart_accepted s).staysInFault h hwork) ((pngStart_accepted s).staysInFault h hwork)

end

/-- What a step finds to do leads to a state in FAULT; a word that it reads decodes in context `c`. -/
def Fetched.StaysInFault (c : LzwCtx) : Fetched → Prop
  | .word e u => Machine.StaysInFault (exec (decode c e) u)
  | .work u => u.engine = .fault
  | .wait => True
  | .stuck _ => True

section
variable {s : State} (h : s.engine = .fault)
  (hreset : ¬ ∃ rest, s.inbox = .bus ⟨true, 32, 0, 1⟩ :: rest ∨ s.inbox = .powerOn :: rest)
include h hreset

/-- A host event other than RESET and the reset input leaves a state in FAULT. -/
theorem fetchHost_staysInFault (c : LzwCtx) : (fetchHost s).StaysInFault c := by
  unfold fetchHost
  split
  · trivial
  · next rest hi => exact absurd ⟨rest, .inr hi⟩ hreset
  · next op rest hi =>
    split
    · next w hw =>
      obtain rfl := (commandWord?_eq_some_iff op w).1 hw
      refine exec_decodeCmd_staysInFault (s := respond .ok { s with inbox := rest }) h ?_
      rintro rfl
      exact hreset ⟨rest, .inl hi⟩
    · exact (busAccess_engine op { s with inbox := rest }).trans h

/-- No unit runs in FAULT, so only the host can move. -/
theorem fetch_staysInFault (c : LzwCtx) : (fetch s).StaysInFault c := by
  have hidle : s.isBusy = false := (isBusy_false_iff s).2 (by simp [h])
  unfold fetch
  split
  · exact fetchHost_staysInFault h hreset c
  · rw [if_neg (by simp [hidle])]
    trivial

end

/-- Settles O7: any other host event, and a step without one, leaves a state in FAULT. -/
theorem faultLeftOnlyByReset : Obligations.FaultLeftOnlyByReset := by
  intro s t h hstep hleft
  by_contra hreset
  have hf := fetch_staysInFault h hreset s.lzw.ctx
  refine hleft ?_
  rcases step_cases s t hstep with ⟨e, s1, u, hw, he, rfl⟩ | ⟨u, hw, rfl⟩ | ⟨-, rfl⟩
  · rw [hw, Fetched.StaysInFault, he] at hf
    exact hf
  · rw [hw] at hf
    exact hf
  · exact h

/-! ### Every run is finite (R281) -/

/-- A bound on the steps that a run still has: the pixels to place, the bits that the accumulator holds, and nine for each
input byte left, one step to read it and one for each of its bits. -/
def State.workLeft (s : State) : Nat :=
  (s.width.toNat * s.height.toNat - s.pixCnt.toNat) + 9 * (s.inLen.toNat - s.inPos.toNat) + s.lzw.bits.toNat

/-- A unit runs with no host event pending and less than `n` work left. -/
structure RunsBelow (n : Nat) (s : State) : Prop where
  busy : s.engine = .busy
  noHost : s.inbox = []
  left : s.workLeft < n

/-- The run has come to its end. -/
def State.Ended (s : State) : Prop := s.engine = .done ∨ s.engine = .fault

/-- The run has ended, or goes on with less than `n` work left. -/
def EndsOrRuns (n : Nat) (s : State) : Prop := s.Ended ∨ RunsBelow n s

theorem EndsOrRuns.finish (n : Nat) (reason : EndReason) (s : State) : EndsOrRuns n (finish reason s) := .inl (.inl rfl)

theorem EndsOrRuns.raise (n : Nat) (code : FaultCode) (s : State) : EndsOrRuns n (raise code s) := .inl (.inr rfl)

/-- Who moves next takes no part in the work left. -/
theorem EndsOrRuns.tick {n : Nat} {s : State} (h : EndsOrRuns n s) : EndsOrRuns n (tick s) :=
  h.imp id fun r => ⟨r.busy, r.noHost, r.left⟩

/-! ### Each part of a run leaves less work -/

section
variable {s : State}

/-- A byte read outweighs the bits that it brings. -/
theorem workLeft_readByte_lt (hi : s.inPos.toNat < s.inLen.toNat) {l : Lzw} (hl : l.bits.toNat ≤ s.lzw.bits.toNat + 8)
    (free : Nat) : { s with inPos := s.inPos + 1, lzw := l, free := free }.workLeft < s.workLeft := by
  have hpos := succ_toNat_of_lt hi
  simp only [State.workLeft, hpos]
  omega

theorem workLeft_popPixel_lt (hp : s.pixCnt.toNat < s.width.toNat * s.height.toNat)
    (hsize : s.width.toNat * s.height.toNat < 2 ^ 32) : (popPixel s).workLeft < s.workLeft := by
  have hsucc : (s.pixCnt + 1).toNat = s.pixCnt.toNat + 1 := by
    simp only [BitVec.toNat_add, BitVec.ofNat_eq_ofNat, BitVec.toNat_ofNat]
    omega
  rw [popPixel_eq]
  simp only [State.workLeft, hsucc]
  omega

/-- A code takes at least one bit from the accumulator. -/
theorem workLeft_dropCode_lt (hcs : 0 < s.lzw.codeSize.toNat) (hb : s.lzw.codeSize.toNat ≤ s.lzw.bits.toNat) :
    { s with lzw := s.lzw.dropCode }.workLeft < s.workLeft := by
  have hbits := Lzw.dropCode_bits hb
  simp only [State.workLeft, hbits]
  omega

/-- A row read and placed leaves no more work. -/
theorem workLeft_afterRow_le (r : PngRun s) (hp : s.params.legal = true)
    (hrow : s.inPos.toNat + s.png.rowBytes.toNat ≤ s.inLen.toNat) (pred : Predictor) :
    (s.afterRow pred).workLeft ≤ s.workLeft := by
  have hpos := afterRow_inPos hrow pred
  have hpix := afterRow_pixCnt r hp pred
  have hregs : (s.afterRow pred).workLeft = (s.width.toNat * s.height.toNat - (s.afterRow pred).pixCnt.toNat) +
    9 * (s.inLen.toNat - (s.afterRow pred).inPos.toNat) + s.lzw.bits.toNat := rfl
  rw [hregs, hpos, hpix, State.workLeft]
  omega

end

/-! ### No meaning that a unit executes adds work -/

section
variable {n : Nat} {s t : State} (h : RunsBelow n s)
include h

/-- The work left depends on no part of the LZW unit but the bits held. -/
theorem RunsBelow.with_lzw {l : Lzw} (hl : l.bits = s.lzw.bits) : RunsBelow n { s with lzw := l } where
  busy := h.busy
  noHost := h.noHost
  left := by
    have hleft := h.left
    simpa only [State.workLeft, hl] using hleft

theorem exec_decodeLen_endsOrRuns {b : Byte} (ht : exec (decodeLen b) s = .next t) : EndsOrRuns n t := by
  rcases exec_decodeLen_cases b s with heq | ⟨len, heq⟩ <;> rw [heq] at ht
  · cases ht
    exact .finish ..
  · rcases openSubBlock_cases len s t ht with ⟨-, rfl⟩ | ⟨-, rfl⟩
    · exact .inr (h.with_lzw rfl)
    · exact .raise ..

omit h in
theorem execLzwBad_endsOrRuns (code : BitVec 12) (ht : execLzwBad code s = .next t) : EndsOrRuns n t := by
  unfold execLzwBad at ht
  split at ht
  all_goals cases ht
  · exact .raise ..
  · exact .finish ..

theorem execLzwFirst_endsOrRuns (code : BitVec 12) (ht : execLzwFirst code s = .next t) : EndsOrRuns n t := by
  unfold execLzwFirst at ht
  split at ht
  · cases ht
  · next l hpush =>
    cases ht
    refine .inr (h.with_lzw ?_)
    rw [(Lzw.push?_some hpush).1]

theorem decodeStep_endsOrRuns {code : BitVec 12} (ht : decodeStep code s = .next t) : EndsOrRuns n t := by
  rcases decodeStep_cases ht with ⟨_, rfl⟩ | ⟨old, l, v, -, -, hdict, -, rfl⟩
  · exact .finish ..
  · refine .inr (h.with_lzw ?_)
    rw [Lzw.addEntry_frame, hdict]

theorem exec_decodeCode_endsOrRuns {c : LzwCtx} {code : BitVec 12} (ht : exec (decodeCode c code) s = .next t) :
    EndsOrRuns n t := by
  unfold decodeCode at ht
  split_ifs at ht
  · cases ht
    exact .inr (h.with_lzw rfl)
  · cases ht
    exact .finish ..
  · exact execLzwBad_endsOrRuns code ht
  · exact execLzwFirst_endsOrRuns h code ht
  all_goals exact decodeStep_endsOrRuns h ht

/-- Going on after a row changes the PNG unit alone, or ends the decode (43_png_unfilter.md R223). -/
theorem advanceRow_endsOrRuns : EndsOrRuns n (advanceRow s) := by
  rcases advanceRow_cases s with ⟨-, heq⟩ | ⟨-, p, -, heq⟩ | ⟨-, -, heq⟩ <;> rw [heq]
  · exact .inr ⟨h.busy, h.noHost, h.left⟩
  · exact .inr ⟨h.busy, h.noHost, h.left⟩
  · exact .finish ..

variable (r : PngRun s) (hp : s.params.legal = true)
include r hp

theorem filterRow_endsOrRuns (pred : Predictor) (ht : filterRow pred s = .next t) : EndsOrRuns n t := by
  rcases Nat.lt_or_ge s.inLen.toNat (s.inPos.toNat + s.png.rowBytes.toNat) with hshort | hpresent
  · rw [filterRow_of_short hshort] at ht
    cases ht
    exact .raise ..
  · rw [filterRow_eq_advanceRow hpresent] at ht
    cases ht
    have hleft := workLeft_afterRow_le r hp hpresent pred
    exact advanceRow_endsOrRuns ⟨h.busy, h.noHost, hleft.trans_lt h.left⟩

theorem exec_decodeFilter_endsOrRuns {b : Byte} : ∀ t, exec (decodeFilter b) s = .next t → EndsOrRuns n t := by
  refine exec_decodeFilter_cases (P := fun res => ∀ t, res = .next t → EndsOrRuns n t) ?_ ?_ b
  · exact fun pred _ => filterRow_endsOrRuns h r hp pred
  · rintro _ ⟨⟩
    exact .raise ..

end

/-! ### Each step of a run ends it or leaves less work -/

/-- What a step finds to do ends the run or leaves less than `n` work; a word that it reads decodes in context `c`. -/
def Fetched.EndsOrRuns (n : Nat) (c : LzwCtx) : Fetched → Prop
  | .word e u => ∀ t, exec (decode c e) u = .next t → Machine.EndsOrRuns n t
  | .work u => Machine.EndsOrRuns n u
  | .wait => False
  | .stuck _ => True

section
variable {s : State} (hb : s.engine = .busy) (hinbox : s.inbox = [])
include hb hinbox

/-- With its next byte read a unit has less work left. -/
theorem RunsBelow.after_readByte (hi : s.inPos.toNat < s.inLen.toNat) :
    RunsBelow s.workLeft { s with inPos := s.inPos + 1 } :=
  ⟨hb, hinbox, workLeft_readByte_lt hi (Nat.le_add_right ..) s.free⟩

theorem lzwHeader_endsOrRuns : EndsOrRuns s.workLeft (lzwHeader s) := by
  rcases lzwHeader_cases s with ⟨-, heq⟩ | ⟨ds, -, hi, ⟨-, heq⟩ | ⟨-, -, heq⟩⟩ <;> rw [heq]
  · exact .raise ..
  · exact .raise ..
  · exact .inr ⟨hb, hinbox, workLeft_readByte_lt hi (by simp [lzwOpen]) _⟩

/-- A pass through the loop that needs a byte reads one, or ends the decode (42_lzw.md R162). -/
theorem fetchLzw_endsOrRuns_of_needsByte (r : LzwRun s) (hd : s.lzw.dataSize ≠ 0)
    (hp : s.pixCnt.toNat < s.width.toNat * s.height.toNat) (ht : s.lzw.top = 0)
    (hbits : s.lzw.bits.toNat < s.lzw.codeSize.toNat) : (fetchLzw s).EndsOrRuns s.workLeft s.lzw.ctx := by
  rcases Nat.lt_or_ge s.inPos.toNat s.inLen.toNat with hi | hend
  case inr =>
    rw [fetchLzw_of_exhausted hd hp ht hbits hend]
    exact .raise ..
  by_cases hc : s.lzw.count = 0
  · rw [fetchLzw_of_lengthByte hd hp ht hbits hc hi]
    exact fun _ hexec => exec_decodeLen_endsOrRuns (RunsBelow.after_readByte hb hinbox hi) hexec
  · rw [fetchLzw_of_openBlock hd hp ht hbits hc hi]
    have hload := (r.good hd).loadByte_bits (s.byteAt (0x10000000 + s.inPos.toNat)) hbits
    exact .inr ⟨hb, hinbox, workLeft_readByte_lt hi hload.le s.free⟩

/-- Each pass through the loop of 42_lzw.md R169 places a pixel, reads a byte, takes a code or ends the decode. -/
theorem fetchLzw_endsOrRuns (r : LzwRun s) (hparams : s.params.legal = true) :
    (fetchLzw s).EndsOrRuns s.workLeft s.lzw.ctx := by
  by_cases hd : s.lzw.dataSize = 0
  · rw [fetchLzw_of_pendingHeader hd]
    exact lzwHeader_endsOrRuns hb hinbox
  rcases Nat.lt_or_ge s.pixCnt.toNat (s.width.toNat * s.height.toNat) with hp | hall
  case inr =>
    rw [fetchLzw_of_allPlaced hd hall]
    exact .finish ..
  by_cases ht : s.lzw.top = 0
  case neg =>
    rw [fetchLzw_of_pixel hd hp ht]
    have hsize := r.check.pixels_le hparams
    have hleft := workLeft_popPixel_lt hp (by omega)
    rw [popPixel_eq] at hleft ⊢
    exact .inr ⟨hb, hinbox, hleft⟩
  rcases Nat.lt_or_ge s.lzw.bits.toNat s.lzw.codeSize.toNat with hbits | hbits
  · exact fetchLzw_endsOrRuns_of_needsByte hb hinbox r hd hp ht hbits
  · rw [fetchLzw_of_code hd hp ht hbits]
    have hwidth := (r.good hd).codeSize.1
    have hdrop : RunsBelow s.workLeft { s with lzw := s.lzw.dropCode } :=
      ⟨hb, hinbox, workLeft_dropCode_lt (by omega) hbits⟩
    exact fun _ hexec => exec_decodeCode_endsOrRuns hdrop hexec

/-- Each scanline reads a filter byte, or ends the decode (43_png_unfilter.md R212). -/
theorem fetchPng_endsOrRuns (r : PngRun s) (hparams : s.params.legal = true) :
    (fetchPng s).EndsOrRuns s.workLeft s.lzw.ctx := by
  rcases Nat.lt_or_ge s.inPos.toNat s.inLen.toNat with hi | hend
  · rw [fetchPng_of_lt hi]
    exact exec_decodeFilter_endsOrRuns (RunsBelow.after_readByte hb hinbox hi) (r.next_inPos hi) hparams
  · rw [fetchPng_of_exhausted hend]
    exact .raise ..

theorem fetch_endsOrRuns (h : Inv s) : (fetch s).EndsOrRuns s.workLeft s.lzw.ctx := by
  have hm : s.hostMoves = false := by simp [State.hostMoves, hinbox]
  rcases h.status.running hb with hu | hu
  · rw [fetch_of_lzw hm hb hu]
    exact fetchLzw_endsOrRuns hb hinbox (h.lzw hb hu) h.params
  · rw [fetch_of_png hm hb hu]
    exact fetchPng_endsOrRuns hb hinbox (h.png hb hu) h.params

theorem step_endsOrRuns (h : Inv s) {t : State} (hstep : step s = .next t) : EndsOrRuns s.workLeft t := by
  have hf := fetch_endsOrRuns hb hinbox h
  rcases step_cases s t hstep with ⟨e, s1, u, hw, he, rfl⟩ | ⟨u, hw, rfl⟩ | ⟨hw, rfl⟩
  · rw [hw] at hf
    exact (hf u he).tick
  · rw [hw] at hf
    exact EndsOrRuns.tick hf
  · rw [hw] at hf
    exact hf.elim

end

/-! ### The induction on the work left -/

theorem run_succ_of_step {M : Host.Core} {s t : M.State} (h : M.step s = .next t) (k : Nat) :
    M.run (k + 1) s = M.run k t := by
  simp only [Host.Core.run, h]

/-- A run with less than `n` work left ends. -/
theorem exists_run_ended {n : Nat} {s : State} (h : Inv s) (hrun : RunsBelow n s) :
    ∃ (k : Nat) (t : State), core.run k s = .next t ∧ t.Ended := by
  induction n generalizing s with
  | zero => exact absurd hrun.left (Nat.not_lt_zero _)
  | succ n ih =>
    obtain ⟨u, hstep⟩ := stepNeverStops s h
    rcases step_endsOrRuns hrun.busy hrun.noHost h hstep with hended | hnext
    · exact ⟨1, u, run_succ_of_step (M := core) hstep 0, hended⟩
    · have hbelow : RunsBelow n u := { hnext with left := hnext.left.trans_le (Nat.le_of_lt_succ hrun.left) }
      obtain ⟨k, t, hk, ht⟩ := ih (stepKeepsInvariant s u h hstep) hbelow
      exact ⟨k + 1, t, (run_succ_of_step (M := core) hstep k).trans hk, ht⟩

/-- Settles O5, by induction on the work left, which every step of a run reduces unless it ends the run. -/
theorem everyRunEnds : Obligations.EveryRunEnds :=
  fun s h hb hinbox => exists_run_ended h ⟨hb, hinbox, Nat.lt_succ_self s.workLeft⟩

end Sys2Proof.Machine

/-! ## Reset and hazards (70_reset_and_hazards.md) -/

namespace Sys2Proof.Machine

/-! ### The writes below 8 bits (R300) -/

/-- Settles O26: each of the two writes leaves the OR of its value and of what it meets, the second meeting the first's. -/
theorem subByteWritesOr : Obligations.SubByteWritesOr := by
  intro s x y c v w hgeom hin h8 hv hw
  have hfirst : getPixel (setPixel s x y c v) x y c = getPixel s x y c ||| v := by
    rw [getPixel_setPixel_same hgeom.depth x y c hv, if_pos h8]
  rw [getPixel_setPixel_same (by simpa using hgeom.depth) x y c (by simpa using hw), if_pos (by simpa using h8), hfirst]

/-! ### The registers after the reset input and at reset (R290, R292) -/

/-- The reset input is work, whatever the engine does when the host moves. -/
theorem fetch_of_powerOn {s : State} {rest : List HostEvent} (hm : s.hostMoves = true)
    (hi : s.inbox = .powerOn :: rest) : fetch s = .work (powerOnReset { s with inbox := rest }) := by
  simp only [fetch, hm, if_true, fetchHost, hi]

/-- What the buffers hold takes no part in a register read. -/
theorem readReg_powerOnReset (s : State) (offset : Nat) :
    readReg (powerOnReset s) offset = readReg (resetRegs s) offset := rfl

/-- A register reads in the state of reset as in any state whose registers were reset. -/
theorem readReg_reset (offset : Nat) : readReg State.reset offset = readReg (resetRegs State.reset) offset := rfl

/-- Settles O54: the step is the reset input's work, which reads registers as the RESET command leaves them. -/
theorem powerOnResetsEveryRegister : Obligations.PowerOnResetsEveryRegister := by
  intro s rest hi hm
  have hregs (k : Nat) (hk : k < 16) : readReg (powerOnReset { s with inbox := rest }) (4 * k) = 0 := by
    rw [readReg_powerOnReset, readReg_resetRegs _ hk]
  exact ⟨_, step_of_work (fetch_of_powerOn hm hi), hregs, rfl, rfl, rfl, rfl, rfl, rfl⟩

/-- Settles O1: the registers read as after a reset, and each field is the one that `State.reset` gives. -/
theorem resetRegistersReadZero : Obligations.ResetRegistersReadZero := by
  have hregs (k : Nat) (hk : k < 16) : readReg State.reset (4 * k) = 0 := by
    rw [readReg_reset, readReg_resetRegs _ hk]
  exact ⟨hregs, rfl, rfl, rfl, rfl, rfl, rfl, rfl, rfl, rfl, rfl, rfl, rfl, rfl⟩

end Sys2Proof.Machine
